-- ==== Sys2Proof/Word.lean ====
section
/-! DEFINITION. The plain words of the manual: octets, tags, epochs and counts (R186, 00_scope Conventions). -/

namespace Sys2Proof

/-- One octet of a line record or of a car link frame. -/
abbrev Octet := BitVec 8

/-- A 48-bit car tag; "smaller tag" compares them as unsigned integers (00_scope, Tags). -/
abbrev Tag := BitVec 48

/-- A 32-bit unit tag. -/
abbrev UnitTag := BitVec 32

/-- An epoch, 0 to 255, advanced modulo 256. -/
abbrev Epoch := BitVec 8

/-- A round count, 0 to 65,535, wrapping. -/
abbrev Round := BitVec 16

/-- The 16-bit tag of a car link frame. -/
abbrev FrameTag := BitVec 16

/-- A quotient rounded up, the manual's "ceil( )". -/
def ceilDiv (a b : Nat) : Nat := (a + b - 1) / b

end Sys2Proof
end

