-- ==== Sys2Proof/Syntax.lean ====
section
/-! DEFINITION. The commands of the part: one constructor per row of spec/opcode_table.json. -/

namespace Sys2Proof

/-- The two coupler ends, named physically. -/
inductive EndId where
  | e1
  | e2
  deriving DecidableEq, Repr

/-- The opposite end. -/
def EndId.other : EndId → EndId
  | .e1 => .e2
  | .e2 => .e1

/-- A command: one row of the table.

Operands. `after` is the number of ticks that pass between the command before and this one (DESIGN CHOICE, log 2).
`octets` are the octets that arrive, in order of arrival; a line record's `after` ends at its first
octet, a car link frame's at its last. A request carries no operand: its operands are the body of
the oldest held frame (DEDUCED, log 4). An event of the part's own timers takes place at the instant its
counter gives (DESIGN CHOICE, log 2). -/
inductive Instr where
  /-- POWER_ON: power is applied (R164). -/
  | powerOn
  /-- POWER_LOSS: power is lost (R165). -/
  | powerLoss (after : Nat)
  /-- FRAME_RECEIVED: octets of the car link, the last of which completes a good frame (R175). -/
  | frameReceived (after : Nat) (octets : List Octet)
  /-- FRAME_TIMEOUT: octets of the car link that leave a frame unfinished, then silence (R174). -/
  | frameTimeout (after : Nat) (octets : List Octet)
  /-- TRANSMIT_FRAME_END: the car link frame being sent ends (R176). -/
  | transmitFrameEnd (after : Nat)
  /-- UNKNOWN: the oldest held frame is of no request kind (R177). -/
  | unknown
  /-- IDENTIFY (R178). -/
  | identify
  /-- STATUS (R179). -/
  | status
  /-- START (R44). -/
  | start
  /-- STOP (R48). -/
  | stop
  /-- RESTART (R181). -/
  | restart
  /-- RESTART_TAKES_EFFECT: the deferred restart (R181). -/
  | restartTakesEffect (after : Nat)
  /-- SET_END_MODE(end, mode) (R6). -/
  | setEndMode
  /-- PUBLISH(channel, payload) (R149). -/
  | publish
  /-- READ_IMAGE(cell) (R160). -/
  | readImage
  /-- READ_TABLE(first index, count) (R182). -/
  | readTable
  /-- WATCH(tag, channel) (R161). -/
  | watch
  /-- UNWATCH(tag, channel) (R161). -/
  | unwatch
  /-- SPLIT(p) (R129). -/
  | split
  /-- SPLIT_CANCEL(p) (R129). -/
  | splitCancel
  /-- CAB_CLAIM (R183). -/
  | cabClaim
  /-- CAB_RELEASE (R183). -/
  | cabRelease
  /-- HEADING(direction) (R183). -/
  | heading
  /-- SETTINGS_READ(area, source) (R166). -/
  | settingsRead
  /-- SETTINGS_WRITE(area, values) (R167). -/
  | settingsWrite
  /-- SETTINGS_PROTECT(area, on) (R171). -/
  | settingsProtect
  /-- STORE_OPERATION_END (R170). -/
  | storeOperationEnd (after : Nat)
  /-- LISTEN_TIMEOUT (R46). -/
  | listenTimeout
  /-- CONTACT_SAMPLE: the next sample of the named end's contact; `closed` is its level (R1). -/
  | contactSample (e : EndId) (closed : Bool)
  /-- CARRIER_CHANGE: the named end's count reaches 100 active or 200 silent ticks (R3). -/
  | carrierChange (after : Nat) (e : EndId)
  /-- MARK_RECEIVED (R33). -/
  | markReceived (after : Nat) (e : EndId) (octets : List Octet)
  /-- BAD_RECORD_RECEIVED: the octets up to where the record ended or the carrier was lost (R12). -/
  | badRecordReceived (after : Nat) (e : EndId) (octets : List Octet)
  /-- FOREIGN_MARK_TIMEOUT at the named end (R16). -/
  | foreignMarkTimeout (e : EndId)
  /-- FOREIGN_QUIET_TIMEOUT at the named end (R20). -/
  | foreignQuietTimeout (e : EndId)
  /-- ROLL_RECORD_RECEIVED (R54). -/
  | rollRecordReceived (after : Nat) (e : EndId) (octets : List Octet)
  /-- PETITION_RECORD_RECEIVED (R90). -/
  | petitionRecordReceived (after : Nat) (e : EndId) (octets : List Octet)
  /-- CHANNEL_RECORD_RECEIVED (R153). -/
  | channelRecordReceived (after : Nat) (e : EndId) (octets : List Octet)
  /-- WAITING_RECORD_SENT: the named end's transmitter goes on to its waiting record (R10). -/
  | waitingRecordSent (e : EndId)
  /-- GENERATED_CYCLE_START (R29). -/
  | generatedCycleStart
  /-- SWITCH_MARK (R58). -/
  | switchMark
  /-- ARMED_REACHED (R132). -/
  | armedReached
  /-- SPLIT_SWITCH (R136). -/
  | splitSwitch
  /-- YIELD_END (R110). -/
  | yieldEnd
  /-- ARMED_TIMEOUT (R133). -/
  | armedTimeout
  /-- PRINCIPAL_JOIN_DEADLINE (R107). -/
  | principalJoinDeadline
  /-- ABSORBED_JOIN_DEADLINE (R109). -/
  | absorbedJoinDeadline
  /-- SILENCE_LIMIT (R92). -/
  | silenceLimit
  /-- WORK_ITEM_START (R95). -/
  | workItemStart
  /-- CELL_START (R28). -/
  | cellStart
  /-- FLYWHEEL_START (R37). -/
  | flywheelStart
  /-- ORPHAN_ENTRY (R39). -/
  | orphanEntry
  /-- YIELD_SEEK_ENTRY (R111). -/
  | yieldSeekEntry
  /-- COASTING_START (R40). -/
  | coastingStart
  /-- SUCCESSION (R146). -/
  | succession
  /-- FIRST_GENERATED_MARK (R138). -/
  | firstGeneratedMark
  /-- SEEK_DEADLINE_RESUME (R116). -/
  | seekDeadlineResume
  /-- SEEK_DEADLINE_ORPHAN (R117). -/
  | seekDeadlineOrphan
  /-- ENROLL_ATTEMPT_ADVANCE (R122). -/
  | enrollAttemptAdvance
  /-- WINDOW_OPENS (R36). -/
  | windowOpens
  /-- FRAME_DROPPED: octets of the car link, the last of which makes the path drop a frame (R174). -/
  | frameDropped (after : Nat) (octets : List Octet)
  deriving DecidableEq, Repr

end Sys2Proof
end

