-- ==== Sys2Proof/Decode.lean ====
section
/-! DEFINITION. The command a word spells by the table's bits. No row of spec/opcode_table.json gives bits
(each "fields" list is empty and no row has "fixed"), so no word spells a command. -/

namespace Sys2Proof

/-- The command that `w` spells by the table's bits: none, for every word. (DESIGN CHOICE, log 7) -/
def decodeTableWord (_nbits _w : Nat) : Option Instr := none

end Sys2Proof
end

