-- ==== Sys2Proof/Config.lean ====
section
/-! DEFINITION. The manual's numbers, and the values it leaves open as constants without a body. -/

namespace Sys2Proof.Config

/-- The listen time: 60,000 ticks without a well-formed mark (R46). -/
def listenTicks : Nat := 60000

/-- Active ticks that make the carrier PRESENT, silent ticks that make it ABSENT (R3). -/
def carrierActiveTicks : Nat := 100
def carrierSilentTicks : Nat := 200

/-- Silence inside a car link frame that drops it: more than this many ticks (R174). -/
def frameSilenceTicks : Nat := 2000

/-- The longest a store operation takes (R165). -/
def storeOpTicks : Nat := 30000

/-- Ticks of one second of the armed timeout (R133). -/
def ticksPerSecond : Nat := 1000000

/-- The relay delay of one hop (R10). -/
def relayTicks : Nat := 4

/-- The wait counts at which the two sides of a join abandon (R107, R109). -/
def admitLimit : Nat := 64
def awaitReadyLimit : Nat := 32

/-- The seek deadline, in old periods (R113). -/
def seekPeriods : Nat := 64

/-- Capacities: held frames (R175), notices (R184), answers (R96), work items (R94), watch entries (R161). -/
def holdingSize : Nat := 4
def noticeSize : Nat := 32
def answerSize : Nat := 16
def workSize : Nat := 8
def watchSize : Nat := 16

/-- The enumerated fields of replies and notices to whose values Record Layouts gives no codes. -/
inductive CodedField where
  | nodeState
  | synced
  | lockState
  | condition
  | contactState
  | carrierState
  | detectState
  | enrolStatus
  | areaCondition
  | tableRead
  | cellState
  | endEventKind
  | joinOutcome
  | splitOutcome
  | splitSide
  | breakOutcome
  | cabEvent
  | storeOpKind
  deriving DecidableEq, Repr

/-- The code octet of the value of a number in such a field, the values numbered as the manual lists them: free values
(R179, R184, DESIGN CHOICE, log 27). -/
opaque codeOf : CodedField → Nat → Octet

/-- The family code that IDENTIFY reports. R178 names the value and the manual gives none: a free value (DESIGN CHOICE, log 8). -/
opaque familyCode : Nat

/-- The part code that IDENTIFY reports: a free value (R178, DESIGN CHOICE, log 8). -/
opaque partCode : Nat

/-- The revision number that IDENTIFY reports: a free value (R178, DESIGN CHOICE, log 8). -/
opaque revision : Nat

/-- The kind octet of the UNKNOWN reply to a frame whose kind is above 127. A reply's kind is its request's kind plus
128, which names no octet there: a free value (11, DESIGN CHOICE, log 36). -/
opaque replyKindAbove : Octet → Octet

/-- The delay of the passive path of an unpowered part, by the instant of the first octet; only its remainder modulo
`relayTicks` is used, as the delay is less than the relay delay: a free value (R8, DESIGN CHOICE, log 38). -/
opaque passiveDelay : Nat → Nat

end Sys2Proof.Config
end

