-- ==== Sys2Proof/Machine/Crc.lean ====
section
/-! DEFINITION. Octet strings and the two check computations (R186, R187, R188). -/

namespace Sys2Proof.Machine

open Sys2Proof

/-- The number an octet string spells, most significant octet first (R186). -/
def octetsNat (os : List Octet) : Nat := os.foldl (fun n o => n * 256 + o.toNat) 0

/-- `k` octets of a number, most significant octet first (R186). -/
def natOctets : Nat → Nat → List Octet
  | 0, _ => []
  | k + 1, v => natOctets k (v / 256) ++ [BitVec.ofNat 8 v]

/-- Octet `i` of a record, 0 beyond its end. -/
def octetAt (os : List Octet) (i : Nat) : Octet := os.getD i 0

/-- Octets `i` to `i + k - 1` as a number. -/
def fieldAt (os : List Octet) (i k : Nat) : Nat := octetsNat ((os.drop i).take k)

/-- A flag octet (R186). -/
def flagOctet (b : Bool) : Octet := if b then 1 else 0

/-- One bit of the 32-bit check register, most significant bit first (R187). -/
def crc32Bit (r : BitVec 32) : BitVec 32 :=
  if r.msb then (r <<< 1) ^^^ 0x04C11DB7#32 else r <<< 1

/-- One octet into the 32-bit check register. -/
def crc32Octet (r : BitVec 32) (o : Octet) : BitVec 32 :=
  crc32Bit (crc32Bit (crc32Bit (crc32Bit (crc32Bit (crc32Bit (crc32Bit (crc32Bit
    (r ^^^ (o.zeroExtend 32 <<< 24)))))))))

/-- The check of a line record over the octets before it: every bit set at first, inverted at last (R187). -/
def crc32 (os : List Octet) : BitVec 32 := ~~~(os.foldl crc32Octet 0xFFFFFFFF#32)

/-- One bit of the 16-bit check register of the car link (R188). -/
def crc16Bit (r : BitVec 16) : BitVec 16 :=
  if r.msb then (r <<< 1) ^^^ 0x1021#16 else r <<< 1

/-- One octet into the 16-bit check register. -/
def crc16Octet (r : BitVec 16) (o : Octet) : BitVec 16 :=
  crc16Bit (crc16Bit (crc16Bit (crc16Bit (crc16Bit (crc16Bit (crc16Bit (crc16Bit
    (r ^^^ (o.zeroExtend 16 <<< 8)))))))))

/-- The check of a car link frame over length, kind, tag and body: every bit set at first, sent as it stands (R188). -/
def crc16 (os : List Octet) : BitVec 16 := os.foldl crc16Octet 0xFFFF#16

/-- The kind octets of the four line records (11_record_layouts, Line records). -/
def kindMark : Octet := 161
def kindRoll : Octet := 162
def kindPetition : Octet := 163
def kindChannel : Octet := 164

/-- Whether a length octet is one its record kind allows (R187). -/
def lengthAllowed (kind : Octet) (len : Nat) : Bool :=
  if kind = kindMark then len == 40
  else if kind = kindChannel then len == 43
  else if kind = kindRoll then len == 48 || len == 72 || len == 96
  else if kind = kindPetition then
    [0, 1, 2, 7, 12, 26, 36, 60, 84].any fun body => len == 15 + body
  else false

/-- The octets before the check, and the check as received. -/
def recordBody (os : List Octet) : List Octet := os.take (os.length - 4)
def recordCheck (os : List Octet) : Nat := octetsNat (os.drop (os.length - 4))

/-- Whether the octets are one record of a known kind, of an allowed length, whole, with a good check (R12, R187). -/
def goodRecord (os : List Octet) : Bool :=
  lengthAllowed (octetAt os 0) (octetAt os 1).toNat
    && os.length == (octetAt os 1).toNat
    && recordCheck os == (crc32 (recordBody os)).toNat

/-- A good record of one kind. -/
def goodRecordOf (kind : Octet) (os : List Octet) : Bool := octetAt os 0 == kind && goodRecord os

/-- The octets of a bad record: of its length where kind and length octets agree, else those two (R187). -/
def badOctets (os : List Octet) : List Octet :=
  os.take (if lengthAllowed (octetAt os 0) (octetAt os 1).toNat then (octetAt os 1).toNat else 2)

/-- The bad records that a line receiver finds in the octets of a line, each with the place of its first octet. Outside a
record octet 0 is idle fill and any other opens a record; after a bad one the receiver is idle at the octet after its kind.
`at_` is the place of the list's head, `skip` the octets that a good record still has there (R12, R187). -/
def badRecords (at_ : Nat) : Nat → List Octet → List (Nat × List Octet)
  | _, [] => []
  | skip + 1, _ :: rest => badRecords (at_ + 1) skip rest
  | 0, o :: rest =>
    let len := (octetAt rest 0).toNat
    if o = 0 then badRecords (at_ + 1) 0 rest
    else if goodRecord ((o :: rest).take len) then badRecords (at_ + 1) (len - 1) rest
    else (at_, badOctets (o :: rest)) :: badRecords (at_ + 1) 0 rest

/-- Whether a line receiver finds a bad record in the octets (R12, R187). -/
def badRecord (os : List Octet) : Bool := !(badRecords 0 0 os).isEmpty

/-- A record's octets closed with their check (R187). -/
def sealRecord (body : List Octet) : List Octet := body ++ natOctets 4 (crc32 body).toNat

/-- A record's octets closed with the inverse of their check, as a copy that is cut off carries it (R187). -/
def sealInverted (body : List Octet) : List Octet := body ++ natOctets 4 (~~~(crc32 body)).toNat

/-- The octets before the check with the hop raised by one, saturating at 15 (R8, R10).
The origin side and the fill bits stay as received (DEDUCED, log 35). -/
def raiseHop (body : List Octet) : List Octet :=
  let o := octetAt body 2
  let hop := o &&& 0x0F#8
  body.set 2 ((o &&& 0xF0#8) ||| (if hop = 15 then 15 else hop + 1))

/-- The relayed copy of a good record (R10). -/
def relayCopy (os : List Octet) : List Octet := sealRecord (raiseHop (recordBody os))

/-- A copy already begun of a record that turns out bad, finished with its check inverted (R8, R10).
Of a record cut short the copy holds what had arrived before its check (DEDUCED, log 15). -/
def cutCopy (os : List Octet) : List Octet := sealInverted (raiseHop (os.take ((octetAt os 1).toNat - 4)))

/-- Whether the copy of a bad record had begun: the relay starts 4 ticks after the first octet, so the kind
and the length octet were found right and a fifth octet arrived (R10, R12, DEDUCED, log 15). -/
def copyBegun (os : List Octet) : Bool :=
  lengthAllowed (octetAt os 0) (octetAt os 1).toNat && decide (4 < os.length)

/-- The bad record of the octets whose copy is begun, with its place: the first of them (R10, DEDUCED, log 15). -/
def begunRecord (os : List Octet) : Option (Nat × List Octet) := (badRecords 0 0 os).find? fun r => copyBegun r.2

end Sys2Proof.Machine
end

