-- ==== Sys2Proof/Machine/State.lean ====
section
/-! DEFINITION. The state of the part, block by block, as plain data, and its value right after reset. -/

namespace Sys2Proof.Machine

open Sys2Proof

/-! ## Named values -/

/-- Node states (03, state table). -/
inductive NodeState where
  | detached
  | listen
  | applicant
  | lead
  | member
  | seek
  | orphan
  deriving DecidableEq, Repr

/-- The two roles of an end in its formation, and the origin side of a record (R11, R52). -/
inductive Side where
  | ref
  | far
  deriving DecidableEq, Repr

def Side.other : Side → Side
  | .ref => .far
  | .far => .ref

inductive ContactState where
  | unknown
  | opened
  | closed
  deriving DecidableEq, Repr

inductive CarrierState where
  | absent
  | present
  deriving DecidableEq, Repr

inductive EndMode where
  | line
  | isolated
  deriving DecidableEq, Repr

/-- The effective condition of an end (R5). -/
inductive Condition where
  | bypass
  | isolated
  | segregated
  | active
  deriving DecidableEq, Repr

/-- The join detection states an end holds; SEGREGATED is the segregated flag (R15). -/
inductive DetectPhase where
  | quiet
  | sighting
  | collecting
  | reported
  deriving DecidableEq, Repr

/-- The join detection state as it is reported (R15). -/
inductive DetectState where
  | quiet
  | sighting
  | collecting
  | reported
  | segregated
  deriving DecidableEq, Repr

/-- The join watch of an end in REPORTED (R20). -/
inductive JoinWatch where
  | none
  | quietWatch (yieldSeen : Bool)
  | admitWatch
  | ready
  deriving DecidableEq, Repr

inductive LockState where
  | idle
  | generating
  | acquiring
  | locked
  | flywheel
  deriving DecidableEq, Repr

inductive CycleKind where
  | marked
  | flywheel
  deriving DecidableEq, Repr

/-- Leader procedures (11, Encodings). -/
inductive Procedure where
  | steady
  | admitting
  | announce
  | yielding
  | arming
  | armed
  deriving DecidableEq, Repr

/-- A heading in train sense. -/
inductive Heading where
  | none
  | towardRef
  | awayFromRef
  deriving DecidableEq, Repr

/-- A direction in car-local sense. -/
inductive Direction where
  | none
  | towardE1
  | towardE2
  deriving DecidableEq, Repr

inductive Orientation where
  | facing
  | reversed
  deriving DecidableEq, Repr

inductive CouplingKind where
  | outer
  | service
  | fixed
  deriving DecidableEq, Repr

inductive ChannelClass where
  | safety
  | service
  | info
  deriving DecidableEq, Repr

/-- A rate; SUSPENDED is a granted rate only. -/
inductive Rate where
  | every
  | alternate
  | quarter
  | suspended
  deriving DecidableEq, Repr

inductive TableKind where
  | current
  | pending
  | armedA
  | armedB
  deriving DecidableEq, Repr

/-- The cause of a BREAK (R13). -/
inductive Cause where
  | isolated
  | opened
  | line
  deriving DecidableEq, Repr

/-- Want kinds as petitions and answers name them (11, petition record); `brk` is BREAK. -/
inductive WantKind where
  | none
  | joinSeen
  | foreignQuiet
  | principalReady
  | brk
  | split
  | splitCancel
  | cabClaim
  | cabRelease
  | heading
  | enroll
  deriving DecidableEq, Repr

/-- Answer outcomes, in the order of their codes from 1 (11, Encodings). -/
inductive AnswerOutcome where
  | joinPrincipal
  | joinAbsorbed
  | joinRefused
  | joinAbandoned
  | stale
  | incomplete
  | done
  | granted
  | taken
  | noCab
  | notHolder
  | armed
  | fixed
  | alreadyArmed
  | badJoint
  | cancelled
  | tooLate
  | notArmed
  | disarmed
  | accepted
  | refused
  deriving DecidableEq, Repr

/-- Answer reasons, in the order of their codes from 1 (11, Encodings). -/
inductive Reason where
  | limit
  | conflict
  | capacity
  | deadline
  | brk
  | timeout
  | cancelled
  deriving DecidableEq, Repr

/-! ## Formation tables and marks -/

/-- One channel of a formation entry (03, Formation entries). -/
structure ChannelDesc where
  cls : ChannelClass
  requested : Rate
  granted : Rate
  sided : Bool
  deriving DecidableEq, Repr

/-- A formation entry (03, Formation entries). -/
structure Entry where
  position : Nat
  tag : Tag
  unit : UnitTag
  orientation : Orientation
  refKind : CouplingKind
  farKind : CouplingKind
  cab : Bool
  channels : List ChannelDesc
  deriving DecidableEq, Repr

/-- A complete formation table: entries in position order, 1 to the size. -/
structure Table where
  epoch : Epoch
  entries : List Entry
  deriving DecidableEq, Repr

def Table.size (t : Table) : Nat := t.entries.length

/-- A table gathered from roll records: the entries held so far, in position order (R55). -/
structure Assembly where
  epoch : Epoch
  size : Nat
  entries : List Entry
  deriving DecidableEq, Repr

/-- The fields of a mark (R29). -/
structure MarkFields where
  leader : Tag
  epoch : Epoch
  n : Nat
  index : Nat
  round : Round
  period : Nat
  procedure : Procedure
  countdown : Nat
  cab : Nat
  heading : Heading
  other : Option Tag
  deriving DecidableEq, Repr

/-- Train time: (round count, cycle index, tick) (R27). -/
structure TrainTime where
  round : Round
  index : Nat
  tick : Nat
  deriving DecidableEq, Repr

/-- A capture: a train time, or the untimed marker (R4). -/
abbrev Capture := Option TrainTime

/-- The header of a JOIN_SEEN body (R86). -/
structure JoinHeader where
  leader : Tag
  epoch : Epoch
  size : Nat
  period : Nat
  adjPosition : Nat
  adjSide : Side
  fixed : Bool
  deriving DecidableEq, Repr

/-- The body of a JOIN_SEEN: its header and the foreign table (R86). -/
structure ForeignReport where
  header : JoinHeader
  entries : List Entry
  deriving DecidableEq, Repr

/-! ## End units -/

/-- A record at a transmitter. A relayed copy carries when the record it copies arrives: the instant of its first octet
and the instant by which its last one has come; the car's own records carry nothing there (R5, R10). -/
structure TxRecord where
  octets : List Octet
  heard : Option (Nat × Nat)
  deriving DecidableEq, Repr

/-- Whether a record is one of the car's own (R11). -/
def TxRecord.own (r : TxRecord) : Bool := r.heard.isNone

/-- Whether the record that is copied began to arrive before an instant and is still arriving at it (R5). -/
def TxRecord.arriving (now : Nat) (r : TxRecord) : Bool := r.heard.any fun h => decide (h.1 < now) && decide (now < h.2)

/-- The record in progress and the instant at which its last octet has been sent. -/
structure TxProgress where
  record : TxRecord
  ends : Nat
  deriving DecidableEq, Repr

/-- The sighting record (R16). -/
structure Sighting where
  leader : Tag
  epoch : Epoch
  period : Nat
  count : Nat
  arrival : Nat
  deriving DecidableEq, Repr

/-- The foreign table under assembly (R17). -/
structure ForeignTable where
  size : Nat
  entries : List Entry
  deriving DecidableEq, Repr

/-- Where the latest hop-0 record says its car stands: at a position, or where the foreign leader stands (R18). -/
inductive AdjacentSource where
  | position (p : Nat)
  | leader
  deriving DecidableEq, Repr

/-- The adjacent foreign car: source and origin side (R18). -/
structure Adjacent where
  source : AdjacentSource
  side : Side
  deriving DecidableEq, Repr

/-- One end unit (01_coupler_ends, state table). -/
structure EndUnit where
  contact : ContactState
  filterCount : Nat
  lastSample : Option Bool
  nextSample : Option Nat
  carrier : CarrierState
  activeCount : Nat
  silentCount : Nat
  /-- Octets still to come of the record that is arriving (R3, DESIGN CHOICE, log 26). -/
  octetsLeft : Nat
  /-- Ticks since the carrier changed, in PRESENT also since a record's last octet: as far back the run of ticks of a
  CARRIER_CHANGE may reach (R3, DESIGN CHOICE, log 26). -/
  freeTicks : Nat
  mode : EndMode
  segregated : Bool
  sending : Option TxProgress
  waiting : Option TxRecord
  /-- A relayed copy and the instant at which it becomes ready, 4 ticks after its record's first octet (R10). -/
  coming : Option (Nat × TxRecord)
  phase : DetectPhase
  sighting : Option Sighting
  foreign : Option ForeignTable
  adjacent : Option Adjacent
  watch : JoinWatch
  answered : Bool
  foreignCab : Nat × Heading
  attempts : Nat
  /-- The foreign leader of the JOIN_SEEN the end queued last (R19, R118). -/
  reported : Option Tag
  /-- The foreign leader of the join that the own leader has begun at this end (R20, R118). -/
  joining : Option Tag
  deriving DecidableEq, Repr

/-! ## Cycle timer -/

/-- The cycle timer (02_the_train_cycle, state table). -/
structure CycleTimer where
  lock : LockState
  counter : Nat
  period : Option Nat
  index : Nat
  round : Round
  latched : Option MarkFields
  followed : Option (Tag × Epoch)
  reference : Option Nat
  refHop : Nat
  early : Nat
  earlyHold : Bool
  earlySeen : Bool
  missed : Nat
  kind : CycleKind
  acceptEnd : Option EndId
  nextSlot : Nat
  deriving DecidableEq, Repr

/-! ## Formation unit -/

/-- What steering is computed from at an installation (R52). -/
structure Steering where
  position : Nat
  size : Nat
  orientation : Orientation
  deriving DecidableEq, Repr

/-- The roll pointer: the table of the carry list being sent, by its place in the list, and the next index (R53). -/
structure RollPointer where
  table : Nat
  index : Nat
  deriving DecidableEq, Repr

/-- What a fast-path leader reports at its first mark (R143). -/
structure Remnant where
  cause : Cause
  capture : Capture
  fixed : Bool
  deriving DecidableEq, Repr

/-- How a new leader came to its led table (R138). -/
inductive LedBy where
  | designatedB
  | fastPath (remnant : Remnant)
  | succession
  | resume
  deriving DecidableEq, Repr

/-- The led table of a new leader before its first generated mark (R138). -/
structure Led where
  table : Table
  by_ : LedBy
  deriving DecidableEq, Repr

/-- The yield record of a member (R111). -/
structure YieldRecord where
  principal : Tag
  cyclesLeft : Nat
  deriving DecidableEq, Repr

/-- The seek record (R113). -/
structure SeekRecord where
  principal : Tag
  jointEnd : Option EndId
  locked : Bool
  lockEnd : Option EndId
  oldLeader : Tag
  oldEpoch : Epoch
  /-- The period in which the deadline counts (R113). -/
  oldPeriod : Nat
  formerLead : Bool
  deadline : Nat
  /-- An epoch advance of the principal found no table: the CURRENT assembly is waited for (R115). -/
  awaitCurrent : Bool
  /-- The last mark generated before the yield (R99, R116). -/
  lastOwnMark : Option MarkFields
  deriving DecidableEq, Repr

/-- Enrolment status (R119). -/
inductive EnrolStatus where
  | gathering
  | waiting
  | full
  | enrolling
  | accepted
  | refused (reason : Option Reason)
  deriving DecidableEq, Repr

/-- A place among a formation's positions (R121). -/
inductive Place where
  | after (a : Nat)
  | beforeFirst
  deriving DecidableEq, Repr

/-- One survey reading (R120). -/
structure Reading where
  position : Nat
  hop : Nat
  side : Side
  deriving DecidableEq, Repr

/-- What an applicant's survey holds of one end in the round in progress (R120). -/
structure SurveyEnd where
  reading : Option Reading
  conflicting : Bool
  foreign : Bool
  deriving DecidableEq, Repr

def SurveyEnd.clear : SurveyEnd := { reading := none, conflicting := false, foreign := false }

/-- The applicant record (R119). -/
structure ApplicantRecord where
  status : EnrolStatus
  survey1 : SurveyEnd
  survey2 : SurveyEnd
  place : Option Place
  orientation : Option Orientation
  attempt : Nat
  roundStarts : Option Nat
  /-- The heard table is being gathered again after an epoch advance (R127). -/
  regathering : Bool
  /-- The slot of the applicant cell in which an ENROLL is being sent (R123). -/
  enrollSlot : Option Nat
  /-- The round count of the round in which the last ENROLL was sent (R122). -/
  sentRound : Option Round
  deriving DecidableEq, Repr

/-- The formation unit (03, state table; 06 and 07 state tables for the records of joining and parting). -/
structure FormationUnit where
  node : NodeState
  current : Option Table
  pendingT : Option Table
  armedA : Option Table
  armedB : Option Table
  asmCurrent : Option Assembly
  asmPending : Option Assembly
  asmA : Option Assembly
  asmB : Option Assembly
  designatedB : Option Tag
  steering : Option Steering
  procedure : Option Procedure
  countdown : Nat
  countdownFresh : Bool
  otherTag : Option Tag
  rollPointer : Option RollPointer
  listenTimer : Nat
  listenCandidate : Option (Tag × Nat)
  led : Option Led
  /-- The fast-path mark: clear, or set with the capture of the carrier loss (R144). -/
  fastPath : Option Capture
  yieldRecord : Option YieldRecord
  seek : Option SeekRecord
  applicant : Option ApplicantRecord
  deriving DecidableEq, Repr

/-! ## Planner -/

/-- One cell of a plan with its owner (04, cell map). -/
structure PlanCell where
  slot : Nat
  index : Nat
  position : Nat
  channel : Nat
  deriving DecidableEq, Repr

/-- A slot plan: of which table, under which period, its slot count S and its cell map. -/
structure Plan where
  epoch : Epoch
  size : Nat
  period : Nat
  slots : Nat
  cells : List PlanCell
  deriving DecidableEq, Repr

/-- The planner (04, state table). -/
structure Planner where
  inForce : Option Plan
  shadowPending : Option Plan
  shadowA : Option Plan
  shadowB : Option Plan
  stale : Bool
  deriving DecidableEq, Repr

/-! ## Petition unit -/

/-- A want of the petition queue with its body (R86); SPLIT and SPLIT_CANCEL hold their want joint (R129),
JOIN_SEEN its fragment pointer (R87). -/
inductive Want where
  | joinSeen (e : EndId) (report : ForeignReport) (pointer : Nat)
  | foreignQuiet (e : EndId) (cab : Nat) (heading : Heading)
  | principalReady (e : EndId)
  | brk (e : EndId) (cause : Cause) (capture : Capture) (fixed : Bool)
  | split (p : Nat) (low high : Tag)
  | splitCancel (p : Nat) (low high : Tag)
  | cabClaim
  | cabRelease
  | heading (d : Direction)
  deriving DecidableEq, Repr

/-- A silence count of the leader (R92). -/
structure Silence where
  tag : Tag
  count : Nat
  heard : Bool
  /-- The count has reached the limit and its DROPOUT item is still to be placed. -/
  owed : Bool
  deriving DecidableEq, Repr

/-- A join assembly of the leader (R93). -/
structure JoinAssembly where
  reporter : Tag
  reporterEnd : EndId
  header : JoinHeader
  entries : List Entry
  deriving DecidableEq, Repr

/-- The place of an ENROLL item, by the car tags of the neighbours (R124). -/
inductive TagPlace where
  | after (first : Tag) (second : Option Tag)
  | beforeFirst (first : Tag)
  deriving DecidableEq, Repr

/-- A work item: kind, requester, key and body (R94). -/
inductive WorkItem where
  | join (reporter : Tag) (e : EndId) (report : ForeignReport)
  | brk (reporter : Tag) (e : EndId) (cause : Cause) (capture : Capture) (fixed : Bool)
  | split (requester : Tag) (low high : Tag) (p : Nat)
  | enroll (applicant : Tag) (entry : Entry) (place : TagPlace)
  | dropout (tag : Tag)
  deriving DecidableEq, Repr

inductive JoinRole where
  | principal
  | absorbed
  deriving DecidableEq, Repr

inductive JoinPhase where
  | admitting
  | awaitReady
  | yielding
  | announce
  deriving DecidableEq, Repr

/-- The join in progress (06, state table). -/
structure JoinProgress where
  role : JoinRole
  reporter : Tag
  reporterEnd : EndId
  report : ForeignReport
  phase : JoinPhase
  wait : Nat
  /-- The holder and heading read from the FOREIGN_QUIET taken, for the merged table (R99). -/
  foreignHolder : Option (Tag × Direction)
  deriving DecidableEq, Repr

inductive SplitStage where
  | arming
  | armed
  | executing
  deriving DecidableEq, Repr

/-- The split record of the leader (07, state table); its tables A and B are the formation unit's armed tables. -/
structure SplitRecord where
  low : Tag
  high : Tag
  requester : Tag
  designatedB : Tag
  stage : SplitStage
  armedTime : Nat
  execution : Nat
  deriving DecidableEq, Repr

/-- An answer in the leader's queue (R96). -/
structure Answer where
  target : Tag
  applicant : Bool
  kind : WantKind
  wantEnd : Option EndId
  outcome : AnswerOutcome
  reason : Option Reason
  deriving DecidableEq, Repr

/-- The petition unit (05, state table). -/
structure PetitionUnit where
  queue : List Want
  ownCab : Bool
  releasedSince : Bool
  silence : List Silence
  silenceDue : List Tag
  joins : List JoinAssembly
  work : List WorkItem
  inProgress : Option WorkItem
  /-- The next mark is to carry STEADY before a re-forming begins, of the item in progress or of one yet to start (R62, R133
  to R135, R137). -/
  deferred : Bool
  join : Option JoinProgress
  split : Option SplitRecord
  answers : List Answer
  holder : Option Tag
  cabHeading : Direction
  deriving DecidableEq, Repr

/-! ## Channel unit -/

/-- The outbound side of one channel (08, state table). -/
structure OutChannel where
  staging : List Octet
  written : Bool
  age : Nat
  deriving DecidableEq, Repr

/-- A live copy (R150). -/
structure LiveCopy where
  channel : Nat
  payload : List Octet
  age : Nat
  stale : Bool
  deriving DecidableEq, Repr

inductive CellState where
  | empty
  | fresh
  | stale
  | suspended
  | gone
  deriving DecidableEq, Repr

/-- A cell of the image (08, field table). -/
structure ImageCell where
  tag : Tag
  channel : Nat
  position : Option Nat
  state : CellState
  payload : Option (List Octet)
  publisherAge : Nat
  receiveAge : Nat
  deriving DecidableEq, Repr

/-- The channel unit (08, state table). -/
structure ChannelUnit where
  out : List OutChannel
  live : List LiveCopy
  image : Option (List ImageCell)
  watch : List (Tag × Nat)
  deriving DecidableEq, Repr

/-! ## Store -/

/-- The IDENTITY fields (09). -/
structure Identity where
  tag : Tag
  unit : UnitTag
  fixed1 : Bool
  fixed2 : Bool
  cab : Bool
  deriving DecidableEq, Repr

/-- One channel of the stored channel list (09). -/
structure ChannelSetting where
  cls : ChannelClass
  requested : Rate
  sided : Bool
  deriving DecidableEq, Repr

/-- The SERVICE settings (09). -/
structure Service where
  period : Nat
  tolerance : Nat
  silenceLimit : Nat
  formationLimit : Nat
  staleLimit : Nat
  sampleInterval : Nat
  qualifyCount : Nat
  armedTimeout : Nat
  channels : List ChannelSetting
  deriving DecidableEq, Repr

inductive AreaId where
  | identity
  | service
  deriving DecidableEq, Repr

/-- One area: contents and protect flag, whether they agree with the check in non-volatile memory, and the condition found at
the last check (R164). Of the check itself only that agreement is held (DESIGN CHOICE, log 99). -/
structure IdentityArea where
  contents : Identity
  protect : Bool
  intact : Bool
  good : Bool
  deriving DecidableEq, Repr

/-- The SERVICE area, held like the IDENTITY area (R164; DESIGN CHOICE, log 99). -/
structure ServiceArea where
  contents : Service
  protect : Bool
  intact : Bool
  good : Bool
  deriving DecidableEq, Repr

inductive StoreOpKind where
  | write
  | protect
  deriving DecidableEq, Repr

/-- The contents a store operation will leave (R165). -/
inductive StoreContents where
  | identity (contents : Identity) (protect : Bool)
  | service (contents : Service) (protect : Bool)
  deriving DecidableEq, Repr

structure StoreOp where
  kind : StoreOpKind
  contents : StoreContents
  begun : Nat
  deriving DecidableEq, Repr

/-- The settings snapshot (R172). -/
structure Snapshot where
  identity : Identity
  service : Service
  deriving DecidableEq, Repr

/-- The store (09, state table). -/
structure Store where
  identity : IdentityArea
  service : ServiceArea
  op : Option StoreOp
  snapshot : Option Snapshot
  deriving DecidableEq, Repr

/-! ## Car link unit -/

/-- A received frame: kind, tag, body (R174). -/
structure Frame where
  kind : Octet
  tag : FrameTag
  body : List Octet
  deriving DecidableEq, Repr

/-- Reply outcomes, in the order of their codes from 0 (11, The car link frame). -/
inductive Outcome where
  | done
  | accepted
  | wrongState
  | busy
  | protected_
  | notConfigured
  | full
  | notFound
  | badArgument
  | malformed
  | unknown
  deriving DecidableEq, Repr

/-- The six sticky flags (R180). -/
structure StickyFlags where
  inputOverrun : Bool
  eventsLost : Bool
  alienMarks : Bool
  serviceDefaulted : Bool
  lineErrors1 : Bool
  lineErrors2 : Bool
  deriving DecidableEq, Repr

def StickyFlags.clear : StickyFlags :=
  { inputOverrun := false, eventsLost := false, alienMarks := false, serviceDefaulted := false,
    lineErrors1 := false, lineErrors2 := false }

/-- An image cell as a read or a CHANGE notice reports it; position 0 for a gone cell (R160, R162). -/
structure CellReport where
  tag : Tag
  channel : Nat
  position : Nat
  state : CellState
  payload : Option (List Octet)
  publisherAge : Nat
  receiveAge : Nat
  time : Capture
  deriving DecidableEq, Repr

/-- The state of one end as STATUS gives it (R179). -/
structure EndReport where
  condition : Condition
  mode : EndMode
  contact : ContactState
  carrier : CarrierState
  detect : DetectState
  attempts : Nat
  deriving DecidableEq, Repr

/-- The applicant group of STATUS (R119, R179). -/
structure ApplicantReport where
  status : EnrolStatus
  place : Option Place
  orientation : Option Orientation
  attempt : Nat
  deriving DecidableEq, Repr

/-- The body of a STATUS reply (R179). -/
structure StatusReport where
  node : NodeState
  synced : Option Bool
  epoch : Option Epoch
  size : Option Nat
  position : Nat
  orientation : Option Orientation
  leader : Option Tag
  procedure : Option Procedure
  countdown : Option Nat
  cab : Nat
  heading : Direction
  lock : LockState
  early : Nat
  missed : Nat
  end1 : EndReport
  end2 : EndReport
  applicant : Option ApplicantReport
  identityGood : Bool
  serviceGood : Bool
  storeOp : Option AreaId
  notices : Nat
  flags : StickyFlags
  deriving DecidableEq, Repr

/-- The eight numeric SERVICE settings' clamped markers (R167). -/
structure ClampedMarkers where
  period : Bool
  tolerance : Bool
  silenceLimit : Bool
  formationLimit : Bool
  staleLimit : Bool
  sampleInterval : Bool
  qualifyCount : Bool
  armedTimeout : Bool
  deriving DecidableEq, Repr

/-- The further contents of a reply, as named fields; `ReplyBody.octets` lays them out (R177 to R183). -/
inductive ReplyBody where
  | empty
  | identify (family part revision : Nat) (tag : Option Tag) (node : NodeState)
  | status (report : StatusReport)
  | cell (report : CellReport)
  | table (heard : Bool) (epoch : Epoch) (size first : Nat) (entries : List (Option Entry))
  | storedIdentity (good protect : Bool) (values : Option Identity)
  | storedService (defaulted protect : Bool) (values : Service)
  | snapshotIdentity (values : Option Identity)
  | snapshotService (values : Option Service)
  | writtenIdentity (values : Identity) (protect : Bool)
  | writtenService (values : Service) (protect : Bool) (clamped : ClampedMarkers)
  deriving DecidableEq, Repr

/-- A reply (R177). -/
structure Reply where
  kind : Octet
  tag : FrameTag
  outcome : Outcome
  body : ReplyBody
  deriving DecidableEq, Repr

/-- Which side of a split a car installed, what it installed, and the tags of the joint key (R136);
no tags where the car's table no longer holds the two cars side by side (DEDUCED, log 37). -/
structure PartedReport where
  sideA : Bool
  epoch : Epoch
  size : Nat
  joint : Option (Tag × Tag)
  deriving DecidableEq, Repr

/-- Outcomes of a JOIN_OUTCOME notice (R118). -/
inductive JoinOutcome where
  | principal
  | absorbed
  | refused
  | abandoned
  | stale
  | joined
  | resumed
  | enrolled
  | enrollRefused
  deriving DecidableEq, Repr

inductive BreakOutcome where
  | done
  | stale
  | remnant
  deriving DecidableEq, Repr

inductive CabEvent where
  | granted
  | lost
  | released
  deriving DecidableEq, Repr

/-- What changed at an end event (R2, R3). -/
inductive EndEvent where
  | contact (state : ContactState)
  | carrier (state : CarrierState)
  deriving DecidableEq, Repr

/-- Outcomes of a SPLIT_OUTCOME notice: an answer's outcome, or PARTED (R89, R129, R136). -/
inductive SplitOutcome where
  | answer (outcome : AnswerOutcome) (reason : Option Reason)
  | parted (report : PartedReport)
  deriving DecidableEq, Repr

/-- The contents of a notice (R184). -/
inductive NoticeBody where
  | formation (epoch : Epoch) (size position : Nat) (orientation : Option Orientation) (leader : Tag)
  | endEvent (e : EndId) (event : EndEvent) (capture : Capture)
  | fixedOpened (e : EndId) (capture : Capture)
  | joinOutcome (outcome : JoinOutcome) (reason : Option Reason) (e : Option EndId) (other : Option Tag)
  | splitOutcome (kind : WantKind) (outcome : SplitOutcome)
  | breakOutcome (outcome : BreakOutcome) (want : Option (Cause × Capture × Bool))
  | cab (event : CabEvent)
  | petitionAnswer (kind : WantKind) (outcome : AnswerOutcome) (reason : Option Reason)
  | change (cell : CellReport)
  | phaseJump (leader : Tag) (time : TrainTime) (jump : Int)
  | storeDone (area : AreaId) (kind : StoreOpKind) (outcome : Outcome)
  deriving DecidableEq, Repr

/-- A queued notice: its number, the train time of its queuing, its contents (R184). -/
structure Notice where
  number : BitVec 8
  time : Capture
  body : NoticeBody
  deriving DecidableEq, Repr

/-- The transmit path of the car link (R176). -/
inductive LinkTx where
  | idle
  | reply (r : Reply)
  | notice (n : Notice)
  deriving DecidableEq, Repr

/-- The car link unit (10, state table). -/
structure CarLink where
  rx : List Octet
  /-- The instant of the last octet that has come (R174). -/
  lastOctet : Nat
  holding : List Frame
  reply : Option Reply
  tx : LinkTx
  /-- The octets of the frame being sent, from the start octet through the check; none on an idle path (R176, R186, R188). -/
  line : List Octet
  notices : List Notice
  number : BitVec 8
  flags : StickyFlags
  restarting : Bool
  deriving DecidableEq, Repr

end Sys2Proof.Machine

namespace Sys2Proof.Machine

open Sys2Proof

/-! ## The whole part -/

/-- The state of the part. -/
structure State where
  powered : Bool
  now : Nat
  e1 : EndUnit
  e2 : EndUnit
  timer : CycleTimer
  form : FormationUnit
  planner : Planner
  pet : PetitionUnit
  chan : ChannelUnit
  store : Store
  link : CarLink
  /-- Notices made in the step in progress, each with its rank in R184's order; empty between steps (DESIGN CHOICE, log 18). -/
  outbox : List (Nat × NoticeBody)
  /-- The commands that are waiting, first in first out. -/
  pending : List Instr
  deriving DecidableEq, Repr

/-- Reasons to stop with a fault. There is none: the spec names no event that stops the part, and no meaning
ends in a fault. -/
inductive Fault where
  deriving DecidableEq, Repr

/-- Reasons to refuse a command. -/
inductive Refusal where
  /-- Raised by no arm of `exec`: the form of the row asks for the constructor. Safe. -/
  | notModelled (mnemonic : String)
  deriving DecidableEq, Repr

/-- The outcome of one command. -/
abbrev Result := Host.Outcome State Fault Refusal

/-! ## Values after power-on (R22, R43, R68, R84, R101, R128, R148, R163, R173, R185) -/

/-- An end unit at power-on (R22). -/
def EndUnit.initial : EndUnit :=
  { contact := .unknown, filterCount := 0, lastSample := none, nextSample := none,
    carrier := .absent, activeCount := 0, silentCount := 0, octetsLeft := 0, freeTicks := 0,
    mode := .line, segregated := false, sending := none, waiting := none, coming := none,
    phase := .quiet, sighting := none, foreign := none, adjacent := none,
    watch := .none, answered := false, foreignCab := (0, .none), attempts := 0, reported := none, joining := none }

/-- The cycle timer at power-on (R43). -/
def CycleTimer.initial : CycleTimer :=
  { lock := .idle, counter := 0, period := none, index := 0, round := 0, latched := none,
    followed := none, reference := none, refHop := 0, early := 0, earlyHold := false,
    earlySeen := false, missed := 0, kind := .marked, acceptEnd := none, nextSlot := 0 }

/-- The formation unit at power-on (R68, R128, R148). -/
def FormationUnit.initial : FormationUnit :=
  { node := .detached, current := none, pendingT := none, armedA := none, armedB := none,
    asmCurrent := none, asmPending := none, asmA := none, asmB := none, designatedB := none,
    steering := none, procedure := none, countdown := 0, countdownFresh := false, otherTag := none,
    rollPointer := none, listenTimer := 0, listenCandidate := none, led := none, fastPath := none,
    yieldRecord := none, seek := none, applicant := none }

/-- The planner at power-on (R84). -/
def Planner.initial : Planner :=
  { inForce := none, shadowPending := none, shadowA := none, shadowB := none, stale := false }

/-- The petition unit at power-on (R101, R128, R148). -/
def PetitionUnit.initial : PetitionUnit :=
  { queue := [], ownCab := false, releasedSince := false, silence := [], silenceDue := [],
    joins := [], work := [], inProgress := none, deferred := false, join := none, split := none,
    answers := [], holder := none, cabHeading := .none }

/-- A channel's outbound side at power-on: 32 zero octets, not written, age 0 (R163). -/
def OutChannel.initial : OutChannel := { staging := List.replicate 32 0, written := false, age := 0 }

/-- The channel unit at power-on (R163). -/
def ChannelUnit.initial : ChannelUnit :=
  { out := List.replicate 8 OutChannel.initial, live := [], image := none, watch := [] }

/-- The SERVICE defaults (09, SERVICE table). -/
def Service.defaults : Service :=
  { period := 10000, tolerance := 10, silenceLimit := 4, formationLimit := 16, staleLimit := 3,
    sampleInterval := 1000, qualifyCount := 8, armedTimeout := 60, channels := [] }

/-- A store that has never been written: both areas BAD (R164, DESIGN CHOICE, log 6). The contents of a BAD area are read by nothing. -/
def Store.unwritten : Store :=
  { identity := { contents := { tag := 0, unit := 0, fixed1 := false, fixed2 := false, cab := false },
                  protect := false, intact := false, good := false },
    service := { contents := Service.defaults, protect := false, intact := false, good := false },
    op := none, snapshot := none }

/-- The car link unit at power-on; SERVICE_DEFAULTED is set if the check finds SERVICE BAD (R164, R185). -/
def CarLink.initial (serviceBad : Bool) : CarLink :=
  { rx := [], lastOctet := 0, holding := [], reply := none, tx := .idle, line := [], notices := [], number := 0,
    flags := { StickyFlags.clear with serviceDefaulted := serviceBad }, restarting := false }

/-- Every block at its power-on values around a store whose areas have been checked. -/
def State.powerOnValues (powered : Bool) (now : Nat) (store : Store) (pending : List Instr) : State :=
  { powered := powered, now := now, e1 := EndUnit.initial, e2 := EndUnit.initial,
    timer := CycleTimer.initial, form := FormationUnit.initial, planner := Planner.initial,
    pet := PetitionUnit.initial, chan := ChannelUnit.initial, store := store,
    link := CarLink.initial (!store.service.good), outbox := [], pending := pending }

/-- The part right after reset: powered, with a store that has never been written, and no command waiting (DESIGN CHOICE, log 6). -/
def State.reset : State := State.powerOnValues true 0 Store.unwritten []

end Sys2Proof.Machine
end

