-- ==== Sys2Proof/Machine/Records.lean ====
section
/-! DEFINITION. The line records' layouts: reading a good record's octets, and making a record (R186, 11_record_layouts). -/

namespace Sys2Proof.Machine

open Sys2Proof

/-! ## Encodings (11, Encodings) -/

def Procedure.code : Procedure → Nat
  | .steady => 0 | .admitting => 1 | .announce => 2 | .yielding => 3 | .arming => 4 | .armed => 5

def Procedure.ofCode : Nat → Option Procedure
  | 0 => some .steady | 1 => some .admitting | 2 => some .announce | 3 => some .yielding
  | 4 => some .arming | 5 => some .armed | _ => none

def Heading.code : Heading → Nat
  | .none => 0 | .towardRef => 1 | .awayFromRef => 2

def Heading.ofCode : Nat → Option Heading
  | 0 => some .none | 1 => some .towardRef | 2 => some .awayFromRef | _ => Option.none

def Direction.code : Direction → Nat
  | .none => 0 | .towardE1 => 1 | .towardE2 => 2

def Direction.ofCode : Nat → Option Direction
  | 0 => some .none | 1 => some .towardE1 | 2 => some .towardE2 | _ => Option.none

def TableKind.code : TableKind → Nat
  | .current => 0 | .pending => 1 | .armedA => 2 | .armedB => 3

def TableKind.ofCode : Nat → Option TableKind
  | 0 => some .current | 1 => some .pending | 2 => some .armedA | 3 => some .armedB | _ => none

def CouplingKind.code : CouplingKind → Nat
  | .outer => 0 | .service => 1 | .fixed => 2

def CouplingKind.ofCode : Nat → Option CouplingKind
  | 0 => some .outer | 1 => some .service | 2 => some .fixed | _ => none

def ChannelClass.code : ChannelClass → Nat
  | .safety => 0 | .service => 1 | .info => 2

def ChannelClass.ofCode : Nat → Option ChannelClass
  | 0 => some .safety | 1 => some .service | 2 => some .info | _ => none

def Rate.code : Rate → Nat
  | .every => 0 | .alternate => 1 | .quarter => 2 | .suspended => 3

/-- Granted rates. -/
def Rate.ofCode : Nat → Option Rate
  | 0 => some .every | 1 => some .alternate | 2 => some .quarter | 3 => some .suspended | _ => none

/-- Requested rates: SUSPENDED is none of them. -/
def Rate.ofRequestedCode : Nat → Option Rate
  | 0 => some .every | 1 => some .alternate | 2 => some .quarter | _ => none

def Cause.code : Cause → Nat
  | .isolated => 0 | .opened => 1 | .line => 2

def Cause.ofCode : Nat → Option Cause
  | 0 => some .isolated | 1 => some .opened | 2 => some .line | _ => none

def WantKind.code : WantKind → Nat
  | .none => 0 | .joinSeen => 1 | .foreignQuiet => 2 | .principalReady => 3 | .brk => 4
  | .split => 5 | .splitCancel => 6 | .cabClaim => 7 | .cabRelease => 8 | .heading => 9 | .enroll => 10

def WantKind.ofCode : Nat → Option WantKind
  | 0 => some .none | 1 => some .joinSeen | 2 => some .foreignQuiet | 3 => some .principalReady
  | 4 => some .brk | 5 => some .split | 6 => some .splitCancel | 7 => some .cabClaim
  | 8 => some .cabRelease | 9 => some .heading | 10 => some .enroll | _ => Option.none

def AnswerOutcome.code : AnswerOutcome → Nat
  | .joinPrincipal => 1 | .joinAbsorbed => 2 | .joinRefused => 3 | .joinAbandoned => 4 | .stale => 5
  | .incomplete => 6 | .done => 7 | .granted => 8 | .taken => 9 | .noCab => 10 | .notHolder => 11
  | .armed => 12 | .fixed => 13 | .alreadyArmed => 14 | .badJoint => 15 | .cancelled => 16
  | .tooLate => 17 | .notArmed => 18 | .disarmed => 19 | .accepted => 20 | .refused => 21

def AnswerOutcome.ofCode : Nat → Option AnswerOutcome
  | 1 => some .joinPrincipal | 2 => some .joinAbsorbed | 3 => some .joinRefused
  | 4 => some .joinAbandoned | 5 => some .stale | 6 => some .incomplete | 7 => some .done
  | 8 => some .granted | 9 => some .taken | 10 => some .noCab | 11 => some .notHolder
  | 12 => some .armed | 13 => some .fixed | 14 => some .alreadyArmed | 15 => some .badJoint
  | 16 => some .cancelled | 17 => some .tooLate | 18 => some .notArmed | 19 => some .disarmed
  | 20 => some .accepted | 21 => some .refused | _ => none

def Reason.code : Reason → Nat
  | .limit => 1 | .conflict => 2 | .capacity => 3 | .deadline => 4 | .brk => 5 | .timeout => 6
  | .cancelled => 7

/-- A reason octet; 0 is "none" (11, roll record octet 18). -/
def Reason.ofCode : Nat → Option (Option Reason)
  | 0 => some none | 1 => some (some .limit) | 2 => some (some .conflict) | 3 => some (some .capacity)
  | 4 => some (some .deadline) | 5 => some (some .brk) | 6 => some (some .timeout)
  | 7 => some (some .cancelled) | _ => none

def Side.code : Side → Nat
  | .ref => 0 | .far => 1

def Side.ofBit (b : Bool) : Side := if b then .far else .ref

/-- An end field: 0 none, 1 E1, 2 E2 (11, petition record octet 10). -/
def endCode : Option EndId → Nat
  | none => 0 | some .e1 => 1 | some .e2 => 2

def endOfCode : Nat → Option (Option EndId)
  | 0 => some none | 1 => some (some .e1) | 2 => some (some .e2) | _ => none

/-- Whether a want kind is one of the four end-bound kinds (R85). -/
def WantKind.endBound : WantKind → Bool
  | .joinSeen | .foreignQuiet | .principalReady | .brk => true
  | _ => false

/-! ## The header every record shares (11, Line records; R11, R25) -/

/-- The hop of a record: bits 0 to 3 of octet 2. -/
def recordHop (os : List Octet) : Nat := (octetAt os 2).toNat % 16

/-- The origin side of a record: bit 7 of octet 2. -/
def recordSide (os : List Octet) : Side := Side.ofBit ((octetAt os 2).getLsbD 7)

/-- The first three octets of an own record: kind, length, origin side with hop 0 (R11). -/
def recordHeader (kind : Octet) (length : Nat) (side : Side) : List Octet :=
  [kind, BitVec.ofNat 8 length, BitVec.ofNat 8 (128 * side.code)]

/-- A whole own record around the octets between header and check. -/
def makeRecord (kind : Octet) (side : Side) (middle : List Octet) : List Octet :=
  sealRecord (recordHeader kind (3 + middle.length + 4) side ++ middle)

/-! ## Formation entries (11, The formation entry) -/

/-- A channel octet. -/
def channelOctet (c : ChannelDesc) : Octet :=
  BitVec.ofNat 8 (c.cls.code + 4 * c.requested.code + 16 * c.granted.code + (if c.sided then 128 else 0))

/-- A channel octet read; none if an enumerated field holds no value of its table. -/
def decodeChannel (o : Octet) : Option ChannelDesc :=
  match ChannelClass.ofCode (o.toNat % 4), Rate.ofRequestedCode (o.toNat / 4 % 4),
      Rate.ofCode (o.toNat / 16 % 8) with
  | some cls, some req, some gr => some { cls := cls, requested := req, granted := gr, sided := o.getLsbD 7 }
  | _, _, _ => none

/-- The weight of a rate: channel cells per round (R49, R73). -/
def Rate.weight : Rate → Nat
  | .every => 4 | .alternate => 2 | .quarter => 1 | .suspended => 0

/-- Every item of a list read, or none. -/
def readAll {α β : Type} (f : α → Option β) : List α → Option (List β)
  | [] => some []
  | a :: rest =>
    match f a, readAll f rest with
    | some b, some bs => some (b :: bs)
    | _, _ => none

/-- Whether a car tag is neither all zeros nor all ones (03, Formation entries). -/
def validTag (t : Tag) : Bool := t != 0 && t != BitVec.allOnes 48

/-- The rate conditions of R49: a granted weight no greater than the requested one, SAFETY granted as requested. -/
def ChannelDesc.ratesOk (c : ChannelDesc) : Bool :=
  decide (c.granted.weight ≤ c.requested.weight) && (c.cls != .safety || c.granted == c.requested)

/-- The 24 octets of an entry. -/
def entryOctets (en : Entry) : List Octet :=
  [BitVec.ofNat 8 en.position] ++ natOctets 6 en.tag.toNat ++ natOctets 4 en.unit.toNat
    ++ [BitVec.ofNat 8 ((if en.orientation = .reversed then 1 else 0) + (if en.cab then 2 else 0)),
        BitVec.ofNat 8 (en.refKind.code + 4 * en.farKind.code),
        BitVec.ofNat 8 en.channels.length]
    ++ (en.channels.map channelOctet ++ List.replicate (8 - en.channels.length) 0)
    ++ [0, 0]

/-- The 24 octets of an entry read; none unless it is well-formed under R49 but for its position. -/
def decodeEntry (os : List Octet) : Option Entry :=
  let count := (octetAt os 13).toNat
  let tag : Tag := BitVec.ofNat 48 (fieldAt os 1 6)
  if count ≤ 8 && validTag tag then
    match CouplingKind.ofCode ((octetAt os 12).toNat % 4), CouplingKind.ofCode ((octetAt os 12).toNat / 4 % 4),
        readAll decodeChannel ((os.drop 14).take count) with
    | some rk, some fk, some chs =>
      if chs.all ChannelDesc.ratesOk then
        some { position := (octetAt os 0).toNat, tag := tag, unit := BitVec.ofNat 32 (fieldAt os 7 4),
               orientation := if (octetAt os 11).getLsbD 0 then .reversed else .facing,
               refKind := rk, farKind := fk, cab := (octetAt os 11).getLsbD 1, channels := chs }
      else none
    | _, _, _ => none
  else none

/-- `k` entries of 24 octets, at the positions `first`, `first + 1` and so on (R49). -/
def decodeEntries (os : List Octet) : Nat → Nat → Option (List Entry)
  | 0, _ => some []
  | k + 1, first =>
    match decodeEntry (os.take 24), decodeEntries (os.drop 24) k (first + 1) with
    | some en, some rest => if en.position = first then some (en :: rest) else none
    | _, _ => none

/-! ## The mark (11, The mark; R29, R32) -/

/-- Whether a mark's fields agree with the ranges of R32. -/
def MarkFields.ok (m : MarkFields) : Bool :=
  decide (1 ≤ m.n) && decide (m.n ≤ 16) && decide (2000 ≤ m.period) && decide (m.period ≤ 20000)
    && m.period % 100 == 0 && decide (m.countdown ≤ 31) && decide (m.cab ≤ m.n)
    && (m.cab != 0 || m.heading == .none) && decide (m.index ≤ 3)
    && (m.other.isSome == (m.procedure == .admitting || m.procedure == .yielding))

/-- The fields of a good MARK record; none if it is not well-formed (R32, R186). Without an other tag its octets are not read
(DESIGN CHOICE, log 67). -/
def decodeMark (os : List Octet) : Option MarkFields :=
  match Procedure.ofCode (octetAt os 16).toNat, Heading.ofCode (octetAt os 19).toNat with
  | some proc, some hd =>
    if (octetAt os 20).toNat ≤ 1 then
      let m : MarkFields :=
        { leader := BitVec.ofNat 48 (fieldAt os 3 6), epoch := octetAt os 9, n := (octetAt os 10).toNat,
          index := (octetAt os 11).toNat, round := BitVec.ofNat 16 (fieldAt os 12 2),
          period := fieldAt os 14 2, procedure := proc, countdown := (octetAt os 17).toNat,
          cab := (octetAt os 18).toNat, heading := hd,
          other := if octetAt os 20 = 1 then some (BitVec.ofNat 48 (fieldAt os 21 6)) else none }
      if m.ok then some m else none
    else none
  | _, _ => none

/-- The mark a leader sends (R29). -/
def markRecord (m : MarkFields) (side : Side) : List Octet :=
  makeRecord kindMark side
    (natOctets 6 m.leader.toNat ++ [m.epoch, BitVec.ofNat 8 m.n, BitVec.ofNat 8 m.index]
      ++ natOctets 2 m.round.toNat ++ natOctets 2 m.period
      ++ [BitVec.ofNat 8 m.procedure.code, BitVec.ofNat 8 m.countdown, BitVec.ofNat 8 m.cab,
          BitVec.ofNat 8 m.heading.code, flagOctet m.other.isSome]
      ++ natOctets 6 (m.other.getD 0).toNat ++ List.replicate 9 0)

/-! ## The roll record (11, The roll record; R53, R54) -/

/-- An answer as a roll record carries it. -/
structure RollAnswer where
  position : Nat
  tag : Tag
  kind : WantKind
  wantEnd : Option EndId
  outcome : AnswerOutcome
  reason : Option Reason
  deriving DecidableEq, Repr

/-- A roll record's fields. -/
structure RollFields where
  kind : TableKind
  epoch : Epoch
  size : Nat
  first : Nat
  answer : Option RollAnswer
  entries : List Entry
  deriving DecidableEq, Repr

/-- The answer octets of a roll record; none if a field holds no value of its table, or the target position is above 16 (DESIGN
CHOICE, log 91). The tag octets are not judged where the position is not 0 (DESIGN CHOICE, log 92). -/
def decodeRollAnswer (os : List Octet) : Option RollAnswer :=
  match WantKind.ofCode ((octetAt os 16).toNat % 32), endOfCode ((octetAt os 16).toNat / 64),
      AnswerOutcome.ofCode (octetAt os 17).toNat, Reason.ofCode (octetAt os 18).toNat with
  | some k, some en, some out, some r =>
    if (octetAt os 9).toNat ≤ 16 then
      some { position := (octetAt os 9).toNat, tag := BitVec.ofNat 48 (fieldAt os 10 6), kind := k,
             wantEnd := en, outcome := out, reason := r }
    else none
  | _, _, _, _ => none

/-- The fields of a good ROLL record; none if it is not well-formed: the fifth condition of R54, R49 and R186. -/
def decodeRoll (os : List Octet) : Option RollFields :=
  let k := (octetAt os 7).toNat
  let size := (octetAt os 5).toNat
  let first := (octetAt os 6).toNat
  if 1 ≤ size && size ≤ 16 && 1 ≤ first && first ≤ size && 1 ≤ k && k ≤ 3 && first + k ≤ size + 1
      && os.length == 24 + 24 * k && (octetAt os 8).toNat ≤ 1 then
    match TableKind.ofCode (octetAt os 3).toNat, decodeEntries (os.drop 20) k first with
    | some kind, some ens =>
      if octetAt os 8 = 1 then
        match decodeRollAnswer os with
        | some a => some { kind := kind, epoch := octetAt os 4, size := size, first := first,
                           answer := some a, entries := ens }
        | none => none
      else some { kind := kind, epoch := octetAt os 4, size := size, first := first,
                  answer := none, entries := ens }
    | _, _ => none
  else none

/-- The octets 9 to 18 of a roll record. -/
def rollAnswerOctets : Option RollAnswer → List Octet
  | none => List.replicate 10 0
  | some a =>
    [BitVec.ofNat 8 a.position] ++ natOctets 6 a.tag.toNat
      ++ [BitVec.ofNat 8 (a.kind.code + 64 * endCode a.wantEnd), BitVec.ofNat 8 a.outcome.code,
          BitVec.ofNat 8 ((a.reason.map Reason.code).getD 0)]

/-- The roll record a leader sends (R53). -/
def rollRecord (r : RollFields) (side : Side) : List Octet :=
  makeRecord kindRoll side
    ([BitVec.ofNat 8 r.kind.code, r.epoch, BitVec.ofNat 8 r.size, BitVec.ofNat 8 r.first,
      BitVec.ofNat 8 r.entries.length, flagOctet r.answer.isSome]
      ++ rollAnswerOctets r.answer ++ [0] ++ (r.entries.map entryOctets).flatten)

/-! ## The channel record (11, The channel record; R151, R153) -/

structure ChannelFields where
  source : Nat
  channel : Nat
  epoch : Epoch
  age : Nat
  stale : Bool
  payload : List Octet
  deriving DecidableEq, Repr

/-- The fields of a good CHANNEL record. -/
def decodeChannelRecord (os : List Octet) : ChannelFields :=
  { source := (octetAt os 3).toNat, channel := (octetAt os 4).toNat, epoch := octetAt os 5,
    age := (octetAt os 6).toNat % 16, stale := (octetAt os 6).getLsbD 7, payload := (os.drop 7).take 32 }

/-- The channel record a car sends (R151). -/
def channelRecord (c : ChannelFields) (side : Side) : List Octet :=
  makeRecord kindChannel side
    ([BitVec.ofNat 8 c.source, BitVec.ofNat 8 c.channel, c.epoch,
      BitVec.ofNat 8 (c.age + (if c.stale then 128 else 0))] ++ c.payload)

/-! ## The petition record (11, The petition record; R87, R90, R123) -/

/-- The body of a petition as the leader takes it. -/
inductive PetitionBody where
  | none
  | joinSeen (e : EndId) (header : JoinHeader) (fragment : Nat) (entries : List Entry)
  | foreignQuiet (e : EndId) (cab : Nat) (heading : Heading)
  | principalReady (e : EndId)
  | brk (e : EndId) (cause : Cause) (capture : TrainTime) (fixed : Bool)
  | split (p : Nat)
  | splitCancel (p : Nat)
  | cabClaim
  | cabRelease
  | heading (d : Direction)
  | enroll (place : Place) (entry : Entry)
  deriving DecidableEq, Repr

/-- The fields of a petition record before its body. -/
def petitionSource (os : List Octet) : Nat := (octetAt os 3).toNat
def petitionSender (os : List Octet) : Tag := BitVec.ofNat 48 (fieldAt os 4 6)
def petitionKind (os : List Octet) : Option WantKind := WantKind.ofCode ((octetAt os 10).toNat % 32)
def petitionEnd (os : List Octet) : Option (Option EndId) := endOfCode ((octetAt os 10).toNat / 64)
def petitionBodyOctets (os : List Octet) : List Octet := (os.drop 11).take (os.length - 15)

/-- Whether a JOIN_SEEN header lies in its ranges (R90): m and P in those of a mark, the adjacent position from 1 to m, any
leader tag (DESIGN CHOICE, log 100). -/
def JoinHeader.ok (h : JoinHeader) : Bool :=
  decide (1 ≤ h.size) && decide (h.size ≤ 16) && decide (2000 ≤ h.period) && decide (h.period ≤ 20000)
    && h.period % 100 == 0 && decide (1 ≤ h.adjPosition) && decide (h.adjPosition ≤ h.size)

/-- A JOIN_SEEN body: header, fragment index and the entries that match it (R87, R90). Bit 5 of octet 11 is ignored (DESIGN
CHOICE, log 84). -/
def decodeJoinSeen (e : EndId) (b : List Octet) : Option PetitionBody :=
  let o := octetAt b 11
  let k := o.toNat / 8 % 4
  let f := o.toNat % 8
  let h : JoinHeader :=
    { leader := BitVec.ofNat 48 (fieldAt b 0 6), epoch := octetAt b 6, size := (octetAt b 7).toNat,
      period := fieldAt b 8 2, adjPosition := (octetAt b 10).toNat, adjSide := Side.ofBit (o.getLsbD 7),
      fixed := o.getLsbD 6 }
  if h.ok && f ≤ ceilDiv h.size 3 && k == min 3 (h.size - 3 * f) && b.length == 12 + 24 * k then
    match decodeEntries (b.drop 12) k (3 * f + 1) with
    | some ens => some (.joinSeen e h f ens)
    | none => none
  else none

/-- An ENROLL body: place and would-be entry (R123, R124). Its position agrees with the place, and its granted
rates equal its requested rates. With BEFORE_FIRST an octet a other than 0 is malformed (DESIGN CHOICE, log 93). -/
def decodeEnroll (b : List Octet) : Option PetitionBody :=
  if b.length = 26 then
    match decodeEntry (b.drop 2) with
    | some en =>
      let a := (octetAt b 1).toNat
      if en.channels.all (fun c => c.granted == c.requested) then
        if octetAt b 0 = 0 then
          if 1 ≤ a && en.position == a + 1 then some (.enroll (.after a) en) else none
        else if octetAt b 0 = 1 then
          if a == 0 && en.position == 1 then some (.enroll .beforeFirst en) else none
        else none
      else none
    | none => none
  else none

/-- A body read by its kind; none if it is malformed. The bounds that need the table (a joint below n, a
place within n) are the leader's (R90, R124). A BREAK whose capture has a cycle index above 3 is malformed (DESIGN CHOICE,
log 71), and so is a body whose end does not go with its kind (DESIGN CHOICE, log 78); the active cab position of a
FOREIGN_QUIET may be any (DESIGN CHOICE, log 79). -/
def decodePetitionBody (kind : WantKind) (en : Option EndId) (b : List Octet) : Option PetitionBody :=
  match kind, en with
  | .none, none => if b = [] then some .none else none
  | .joinSeen, some e => decodeJoinSeen e b
  | .foreignQuiet, some e =>
    match b, Heading.ofCode (octetAt b 1).toNat with
    | [c, _], some h => some (.foreignQuiet e c.toNat h)
    | _, _ => none
  | .principalReady, some e => if b = [] then some (.principalReady e) else none
  | .brk, some e =>
    match Cause.ofCode (octetAt b 0).toNat with
    | some c =>
      if b.length = 7 && (octetAt b 6).toNat ≤ 1 && (octetAt b 3).toNat ≤ 3 then
        some (.brk e c { round := BitVec.ofNat 16 (fieldAt b 1 2), index := (octetAt b 3).toNat,
                         tick := fieldAt b 4 2 } (octetAt b 6 == 1))
      else none
    | none => none
  | .split, none => match b with
    | [p] => some (.split p.toNat)
    | _ => none
  | .splitCancel, none => match b with
    | [p] => some (.splitCancel p.toNat)
    | _ => none
  | .cabClaim, none => if b = [] then some .cabClaim else none
  | .cabRelease, none => if b = [] then some .cabRelease else none
  | .heading, none =>
    match b, Direction.ofCode (octetAt b 0).toNat with
    | [_], some d => some (.heading d)
    | _, _ => none
  | .enroll, none => decodeEnroll b
  | _, _ => none

/-- The kind of a body. -/
def PetitionBody.kind : PetitionBody → WantKind
  | .none => .none | .joinSeen _ _ _ _ => .joinSeen | .foreignQuiet _ _ _ => .foreignQuiet
  | .principalReady _ => .principalReady | .brk _ _ _ _ => .brk | .split _ => .split
  | .splitCancel _ => .splitCancel | .cabClaim => .cabClaim | .cabRelease => .cabRelease
  | .heading _ => .heading | .enroll _ _ => .enroll

/-- The end a body names. -/
def PetitionBody.wantEnd : PetitionBody → Option EndId
  | .joinSeen e _ _ _ | .foreignQuiet e _ _ | .principalReady e | .brk e _ _ _ => some e
  | _ => Option.none

/-- The octets of a body; bit 5 of a JOIN_SEEN's octet 11 is 0 (DESIGN CHOICE, log 84). -/
def petitionBodyEncode : PetitionBody → List Octet
  | .none | .principalReady _ | .cabClaim | .cabRelease => []
  | .joinSeen _ h f ens =>
    natOctets 6 h.leader.toNat ++ [h.epoch, BitVec.ofNat 8 h.size] ++ natOctets 2 h.period
      ++ [BitVec.ofNat 8 h.adjPosition,
          BitVec.ofNat 8 (128 * h.adjSide.code + (if h.fixed then 64 else 0) + 8 * ens.length + f)]
      ++ (ens.map entryOctets).flatten
  | .foreignQuiet _ c h => [BitVec.ofNat 8 c, BitVec.ofNat 8 h.code]
  | .brk _ c t fx =>
    [BitVec.ofNat 8 c.code] ++ natOctets 2 t.round.toNat ++ [BitVec.ofNat 8 t.index]
      ++ natOctets 2 t.tick ++ [flagOctet fx]
  | .split p | .splitCancel p => [BitVec.ofNat 8 p]
  | .heading d => [BitVec.ofNat 8 d.code]
  | .enroll (.after a) en => [0, BitVec.ofNat 8 a] ++ entryOctets en
  | .enroll .beforeFirst en => [1, 0] ++ entryOctets en

/-- The petition record a car sends (R87, R123). -/
def petitionRecord (source : Nat) (sender : Tag) (body : PetitionBody) (side : Side) : List Octet :=
  makeRecord kindPetition side
    ([BitVec.ofNat 8 source] ++ natOctets 6 sender.toNat
      ++ [BitVec.ofNat 8 (body.kind.code + 64 * endCode body.wantEnd)] ++ petitionBodyEncode body)

end Sys2Proof.Machine
end

