-- ==== Sys2Proof/Machine/Tables.lean ====
section
/-! DEFINITION. Formation tables: looking entries up, assemblies, steering, and the position arithmetic of new tables
(R47, R52, R55, R64 to R67). -/

namespace Sys2Proof.Machine

open Sys2Proof

/-! ## Looking entries up -/

/-- The entry at a position. -/
def entryAt (ens : List Entry) (p : Nat) : Option Entry := ens.find? fun en => en.position == p

/-- The entry that holds a car tag. -/
def entryOf (ens : List Entry) (t : Tag) : Option Entry := ens.find? fun en => en.tag == t

/-- Whether a car tag is in a list of entries. -/
def holdsTag (ens : List Entry) (t : Tag) : Bool := ens.any fun en => en.tag == t

/-- The position of a car tag, 0 if it has none (R47). -/
def positionOf (ens : List Entry) (t : Tag) : Nat := ((entryOf ens t).map Entry.position).getD 0

/-- Entries numbered 1, 2, 3 and so on in the order given. -/
def renumberFrom : Nat → List Entry → List Entry
  | _, [] => []
  | k, en :: rest => { en with position := k } :: renumberFrom (k + 1) rest

def renumber (ens : List Entry) : List Entry := renumberFrom 1 ens

/-- Whether a list of entries holds two with one car tag (R50). -/
def repeatsTag : List Entry → Bool
  | [] => false
  | en :: rest => holdsTag rest en.tag || repeatsTag rest

/-! ## Assemblies (R55) -/

/-- An entry stored at its position, replacing the one held there; the list stays in position order (R55). -/
def putEntry (en : Entry) : List Entry → List Entry
  | [] => [en]
  | x :: rest =>
    if en.position < x.position then en :: x :: rest
    else if en.position = x.position then en :: rest
    else x :: putEntry en rest

/-- Entries 1 to the size are all held. -/
def allHeld (size : Nat) (ens : List Entry) : Bool :=
  (List.range size).all fun i => ens.any fun en => en.position == i + 1

def Assembly.complete (a : Assembly) : Bool := allHeld a.size a.entries

/-- The table a complete assembly holds. -/
def Assembly.table (a : Assembly) : Table :=
  { epoch := a.epoch, entries := a.entries.filter fun en => decide (en.position ≤ a.size) }

/-- The complete table of an assembly, if it is complete. -/
def completeTable (a : Option Assembly) : Option Table :=
  a.bind fun a => if a.complete then some a.table else none

/-- A whole table held as an assembly (a table that becomes the heard table). -/
def Table.assembly (t : Table) : Assembly := { epoch := t.epoch, size := t.size, entries := t.entries }

/-- One entry into an assembly: when a second entry with its car tag is stored the assembly is cleared (R55). -/
def storeEntry (a : Assembly) (en : Entry) : Assembly :=
  let ens := putEntry en a.entries
  if repeatsTag ens then { a with entries := [] } else { a with entries := ens }

/-- A taken record's table part into the assembly of its kind (R55). -/
def storeRecord (a : Option Assembly) (epoch : Epoch) (size : Nat) (ens : List Entry) : Assembly :=
  let start : Assembly :=
    match a with
    | some a => if a.epoch = epoch && a.size = size then a else { epoch := epoch, size := size, entries := [] }
    | none => { epoch := epoch, size := size, entries := [] }
  ens.foldl storeEntry start

/-! ## Steering (R52) -/

/-- The car's REF end. -/
def Orientation.refEnd : Orientation → EndId
  | .facing => .e1
  | .reversed => .e2

/-- The end in a role. -/
def Orientation.endOn (o : Orientation) : Side → EndId
  | .ref => o.refEnd
  | .far => o.refEnd.other

/-- The role of an end. -/
def Orientation.sideOf (o : Orientation) (e : EndId) : Side := if e = o.refEnd then .ref else .far

def Orientation.flip : Orientation → Orientation
  | .facing => .reversed
  | .reversed => .facing

/-- Whether the end in a role at position `q` of `n` is outer (R52). -/
def outerAt (q n : Nat) : Side → Bool
  | .ref => q == 1
  | .far => q == n

/-- The steering of an own tag in a table (R52). -/
def steeringOf (t : Table) (own : Tag) : Option Steering :=
  (entryOf t.entries own).map fun en =>
    { position := en.position, size := t.size, orientation := en.orientation }

/-- Whether an end is outer under a steering. -/
def Steering.outer (st : Steering) (e : EndId) : Bool :=
  outerAt st.position st.size (st.orientation.sideOf e)

/-! ## Headings (R98) -/

/-- Car-local to train sense. -/
def Direction.toTrain (d : Direction) (o : Orientation) : Heading :=
  match d, o with
  | .none, _ => .none
  | .towardE1, .facing => .towardRef
  | .towardE2, .facing => .awayFromRef
  | .towardE1, .reversed => .awayFromRef
  | .towardE2, .reversed => .towardRef

/-- Train to car-local sense, the same table read the other way. -/
def Heading.toLocal (h : Heading) (o : Orientation) : Direction :=
  match h, o with
  | .none, _ => .none
  | .towardRef, .facing => .towardE1
  | .awayFromRef, .facing => .towardE2
  | .towardRef, .reversed => .towardE2
  | .awayFromRef, .reversed => .towardE1

/-! ## New tables (R64 to R67) -/

def Entry.setRefKind (k : CouplingKind) (en : Entry) : Entry := { en with refKind := k }
def Entry.setFarKind (k : CouplingKind) (en : Entry) : Entry := { en with farKind := k }

/-- An entry turned round: orientation flipped, coupling kinds swapped (R64). -/
def Entry.turn (en : Entry) : Entry :=
  { en with orientation := en.orientation.flip, refKind := en.farKind, farKind := en.refKind }

/-- The entry at one position changed. -/
def mapAt (p : Nat) (f : Entry → Entry) (ens : List Entry) : List Entry :=
  ens.map fun en => if en.position = p then f en else en

/-- The merged table of a join (R64): the principal's entries `pr`, joint at its far or reference end; the absorbed
entries `ab`, joint at its position 1 or m; the kind of the joint. -/
def mergeTables (pr : List Entry) (jointFar : Bool) (ab : List Entry) (jointFirst : Bool) (fixed : Bool) :
    List Entry :=
  let kind : CouplingKind := if fixed then .fixed else .service
  let n := pr.length
  let m := ab.length
  if jointFar then
    let ab' := if jointFirst then ab else (ab.map Entry.turn).reverse
    mapAt (n + 1) (Entry.setRefKind kind) (mapAt n (Entry.setFarKind kind) (renumber (pr ++ ab')))
  else
    let ab' := if jointFirst then (ab.map Entry.turn).reverse else ab
    mapAt m (Entry.setFarKind kind) (mapAt (m + 1) (Entry.setRefKind kind) (renumber (ab' ++ pr)))

/-- An applicant's entry inserted after position `a`, or before position 1 when `a` is 0 (R65). Its ends with no
car beyond become OUTER; at an end of the train the neighbour's facing end takes the applicant's kind. -/
def insertEntry (ens : List Entry) (a : Nat) (en : Entry) : List Entry :=
  let n := ens.length
  let en' := { en with refKind := if a = 0 then .outer else en.refKind,
                       farKind := if a = n then .outer else en.farKind }
  let whole := renumber (ens.take a ++ en' :: ens.drop a)
  let front := if a = 0 then mapAt 2 (Entry.setRefKind en.farKind) whole else whole
  if a = n then mapAt n (Entry.setFarKind en.refKind) front else front

/-- The run of positions `u` to `v` kept (R66). A run of one REVERSED car keeps its orientation (R47, DESIGN CHOICE, log 113). -/
def keepRun (ens : List Entry) (u v : Nat) : List Entry :=
  let run := renumber (ens.filter fun en => decide (u ≤ en.position) && decide (en.position ≤ v))
  let head := if 1 < u then mapAt 1 (Entry.setRefKind .outer) run else run
  if v < ens.length then mapAt run.length (Entry.setFarKind .outer) head else head

/-- Position `r` removed (R67). One REVERSED car that is left keeps its orientation (R47, DESIGN CHOICE, log 113). -/
def removePosition (ens : List Entry) (r : Nat) : List Entry :=
  let rest := renumber (ens.filter fun en => en.position != r)
  let head := if r = 1 then mapAt 1 (Entry.setRefKind .outer) rest else rest
  if r = ens.length then mapAt rest.length (Entry.setFarKind .outer) head else head

end Sys2Proof.Machine
end

