-- ==== Sys2Proof/Machine/Planner.lean ====
section
/-! DEFINITION. The planner's arithmetic: capacity, granted rates, placement (R69 to R77). -/

namespace Sys2Proof.Machine

open Sys2Proof

/-! ## Capacity (R69) -/

/-- The guard G(n). -/
def guardTicks (n : Nat) : Nat := 20 + 8 * (n - 1)

/-- The slot count S. -/
def slotCount (period n : Nat) : Nat := min 64 ((period - 40 - guardTicks n) / 100)

/-- The channel slot count C. -/
def channelSlots (period n : Nat) : Nat := slotCount period n - 5

/-- The round capacity, 4 × C channel cells. -/
def roundCapacity (period n : Nat) : Nat := 4 * channelSlots period n

/-! ## Demand (R71, R73) -/

/-- The sum of the weights of an entry's granted rates. -/
def Entry.demand (en : Entry) : Nat := (en.channels.map fun c => c.granted.weight).sum

def grantedDemand (ens : List Entry) : Nat := (ens.map Entry.demand).sum

/-- The sum of the weights of the requested rates of an entry's SAFETY channels. -/
def Entry.safetyDemand (en : Entry) : Nat :=
  (en.channels.map fun c => if c.cls = .safety then c.requested.weight else 0).sum

def safetyDemand (ens : List Entry) : Nat := (ens.map Entry.safetyDemand).sum

/-- The SAFETY test of a table under a period (R71). -/
def safetyOk (period : Nat) (ens : List Entry) : Bool :=
  decide (safetyDemand ens ≤ roundCapacity period ens.length)

/-! ## Lowering (R73) -/

/-- Every granted rate set equal to its requested rate (R73). -/
def grantRequested (ens : List Entry) : List Entry :=
  ens.map fun en => { en with channels := en.channels.map fun c => { c with granted := c.requested } }

/-- One step down. -/
def Rate.lower : Rate → Rate
  | .every => .alternate
  | .alternate => .quarter
  | .quarter => .suspended
  | .suspended => .suspended

/-- A channel of a table: position, channel index, description. -/
structure ChannelRef where
  position : Nat
  channel : Nat
  desc : ChannelDesc
  deriving DecidableEq, Repr

/-- An entry's channels, in channel order. -/
def Entry.refs (en : Entry) : List ChannelRef :=
  en.channels.zipIdx.map fun p => { position := en.position, channel := p.2, desc := p.1 }

/-- Channel order: positions ascending, channel indices ascending within each (R74). -/
def channelOrder (ens : List Entry) : List ChannelRef := (ens.map Entry.refs).flatten

/-- Of the channels of a class above SUSPENDED, the one of highest granted weight; ties go to the last in channel
order, the highest position and then the highest channel index (R73). -/
def pickLowered (cls : ChannelClass) (refs : List ChannelRef) : Option ChannelRef :=
  refs.foldl (fun best r =>
    if r.desc.cls = cls && r.desc.granted != .suspended then
      match best with
      | none => some r
      | some b => if b.desc.granted.weight ≤ r.desc.granted.weight then some r else best
    else best) none

/-- The channel that one step of R73 lowers: INFO while any is above SUSPENDED, else SERVICE. -/
def nextLowered (ens : List Entry) : Option ChannelRef :=
  match pickLowered .info (channelOrder ens) with
  | some r => some r
  | none => pickLowered .service (channelOrder ens)

/-- One channel lowered one step. -/
def lowerChannel (ens : List Entry) (r : ChannelRef) : List Entry :=
  mapAt r.position (fun en => { en with
    channels := en.channels.zipIdx.map fun p =>
      if p.2 = r.channel then { p.1 with granted := p.1.granted.lower } else p.1 }) ens

/-- The lowering loop; `fuel` bounds its steps by the demand, each step saving at least 1. -/
def lowerUntil : Nat → Nat → List Entry → List Entry
  | 0, _, ens => ens
  | fuel + 1, cap, ens =>
    if grantedDemand ens ≤ cap then ens
    else match nextLowered ens with
      | none => ens
      | some r => lowerUntil fuel cap (lowerChannel ens r)

/-- Granted rates of a table that passed the SAFETY test (R73). -/
def grantRates (period : Nat) (ens : List Entry) : List Entry :=
  let req := grantRequested ens
  lowerUntil (grantedDemand req) (roundCapacity period ens.length) req

/-! ## Trimming (R72) -/

/-- One end entry removed: the one farther from the leader, at equal distance the one at the higher position. -/
def trimOnce (leader : Tag) (ens : List Entry) : List Entry :=
  let pL := positionOf ens leader
  let n := ens.length
  if n - pL < pL - 1 then keepRun ens 2 n else keepRun ens 1 (n - 1)

/-- Trimming until the SAFETY test passes; the leader's entry stays, so one car is the last run. -/
def trimUntil (period : Nat) (leader : Tag) : Nat → List Entry → List Entry
  | 0, ens => ens
  | fuel + 1, ens =>
    if safetyOk period ens || decide (ens.length ≤ 1) then ens
    else trimUntil period leader fuel (trimOnce leader ens)

/-- Trimmed and granted entries of a table that adds no cars (R71 to R73). -/
def grantKept (period : Nat) (leader : Tag) (ens : List Entry) : List Entry :=
  grantRates period (trimUntil period leader ens.length ens)

/-! ## Placement (R74 to R77) -/

/-- The channels of one granted rate, in channel order. -/
def ofRate (r : Rate) (refs : List ChannelRef) : List ChannelRef := refs.filter fun c => c.desc.granted == r

def cellOf (slot index : Nat) (c : ChannelRef) : PlanCell :=
  { slot := slot, index := index, position := c.position, channel := c.channel }

/-- First pass: EVERY channel k takes slot 5 + k at all four indices (R74). -/
def placeEvery (refs : List ChannelRef) : List PlanCell :=
  ((ofRate .every refs).zipIdx.map fun p => (List.range 4).map fun i => cellOf (5 + p.2) i p.1).flatten

/-- Second pass: ALTERNATE channel j takes slot 5 + e + floor(j / 2), even j at 0 and 2, odd j at 1 and 3 (R75). -/
def placeAlternate (e : Nat) (refs : List ChannelRef) : List PlanCell :=
  ((ofRate .alternate refs).zipIdx.map fun p =>
    [cellOf (5 + e + p.2 / 2) (p.2 % 2) p.1, cellOf (5 + e + p.2 / 2) (p.2 % 2 + 2) p.1]).flatten

/-- The h-th free cell from slot 5 + e on, for `a` ALTERNATE channels (R76). -/
def freeCell (e a h : Nat) : Nat × Nat :=
  if a % 2 = 1 then
    if h < 2 then (5 + e + (a - 1) / 2, 2 * h + 1)
    else (5 + e + (a + 1) / 2 + (h - 2) / 4, (h - 2) % 4)
  else (5 + e + a / 2 + h / 4, h % 4)

/-- Third pass: QUARTER channel h takes the h-th free cell (R76). -/
def placeQuarter (e a : Nat) (refs : List ChannelRef) : List PlanCell :=
  (ofRate .quarter refs).zipIdx.map fun p => cellOf (freeCell e a p.2).1 (freeCell e a p.2).2 p.1

/-- The cells the three passes place, before any is dropped. -/
def placeAll (ens : List Entry) : List PlanCell :=
  let refs := channelOrder ens
  let e := (ofRate .every refs).length
  let a := (ofRate .alternate refs).length
  placeEvery refs ++ placeAlternate e refs ++ placeQuarter e a refs

/-- The plan of a table under a period: cells at slot S or beyond are dropped (R70, R77). -/
def makePlan (t : Table) (period : Nat) : Plan :=
  let s := slotCount period t.size
  { epoch := t.epoch, size := t.size, period := period, slots := s,
    cells := (placeAll t.entries).filter fun c => decide (c.slot < s) }

/-- The owner of a cell. -/
def Plan.owner (p : Plan) (slot index : Nat) : Option PlanCell :=
  p.cells.find? fun c => c.slot == slot && c.index == index

/-- Whether a plan gives a cell to a (position, channel) pair (R79). -/
def Plan.gives (p : Plan) (slot index position channel : Nat) : Bool :=
  p.cells.any fun c => c.slot == slot && c.index == index && c.position == position && c.channel == channel

/-- The channels of a position that have a cell at an index (R150). -/
def Plan.channelsAt (p : Plan) (position index : Nat) : List Nat :=
  (List.range 8).filter fun ch => p.cells.any fun c =>
    c.position == position && c.index == index && c.channel == ch

end Sys2Proof.Machine
end

