-- ==== Sys2Proof/Machine/Flags.lean ====
section
/-! DEFINITION. What is read off the state and not held: conditions of the ends, steering, synchronisation, train time;
and the sticky flags (R4, R5, R27, R52, R60, R63, R180). -/

namespace Sys2Proof.Machine

open Sys2Proof

/-! ## Ends -/

/-- The end unit of an end. -/
def State.endUnit (s : State) : EndId → EndUnit
  | .e1 => s.e1
  | .e2 => s.e2

/-- An end unit replaced. -/
def State.setEnd (s : State) (e : EndId) (u : EndUnit) : State :=
  match e with
  | .e1 => { s with e1 := u }
  | .e2 => { s with e2 := u }

/-- An end unit changed. -/
def State.mapEnd (s : State) (e : EndId) (f : EndUnit → EndUnit) : State := s.setEnd e (f (s.endUnit e))

/-- The effective condition of an end: the first row that holds (R5). -/
def State.condition (s : State) (e : EndId) : Condition :=
  if !s.powered then .bypass
  else if (s.endUnit e).mode = .isolated then .isolated
  else if s.form.node = .detached || s.form.node = .listen || s.form.node = .applicant then .bypass
  else if (s.endUnit e).segregated then .segregated
  else .active

/-- The join detection state as reported: SEGREGATED exactly while the flag is set (R15). -/
def EndUnit.detect (u : EndUnit) : DetectState :=
  if u.segregated then .segregated
  else match u.phase with
    | .quiet => .quiet
    | .sighting => .sighting
    | .collecting => .collecting
    | .reported => .reported

/-! ## Settings in use (R172) -/

/-- The SERVICE settings every block reads: the snapshot's. Without a snapshot no block reads them; the defaults stand in. -/
def State.settings (s : State) : Service :=
  match s.store.snapshot with
  | some sn => sn.service
  | none => Service.defaults

/-- The part's own car tag, from the snapshot (R47); 0, no tag of any entry, without one. -/
def State.ownTag (s : State) : Tag :=
  match s.store.snapshot with
  | some sn => sn.identity.tag
  | none => 0

/-- The fixed-end flag of an end in the snapshot (R2, R13). -/
def State.fixedEnd (s : State) (e : EndId) : Bool :=
  match s.store.snapshot, e with
  | some sn, .e1 => sn.identity.fixed1
  | some sn, .e2 => sn.identity.fixed2
  | none, _ => false

/-- The mark tolerance W (R34). -/
def State.tolerance (s : State) : Nat := s.settings.tolerance

/-- The period in force as a number (R23); 0 where there is none. -/
def State.period (s : State) : Nat := s.timer.period.getD 0

/-! ## Tables and steering -/

/-- The entries of the current table; none where there is none. -/
def State.entries (s : State) : List Entry :=
  match s.form.current with
  | some t => t.entries
  | none => []

/-- The size n of the current table, 0 where there is none. -/
def State.n (s : State) : Nat := s.entries.length

/-- The part's own entry in its current table. -/
def State.ownEntry (s : State) : Option Entry := entryOf s.entries s.ownTag

/-- The part's own position in its current table, 0 where it has none (R47). -/
def State.ownPosition (s : State) : Nat := positionOf s.entries s.ownTag

/-- The part's own orientation in its current table. -/
def State.ownOrientation (s : State) : Option Orientation := s.ownEntry.map Entry.orientation

/-- The heard table: the CURRENT assembly of an applicant (DEDUCED, log 12). -/
def State.heard (s : State) : Option Assembly :=
  if s.form.node = .applicant then s.form.asmCurrent else none

/-- The leader tag of the part's own formation. -/
def State.leaderTag (s : State) : Option Tag :=
  if s.form.node = .lead then some s.ownTag else s.timer.followed.map Prod.fst

/-- The working epoch: that of the followed leader, in LEAD that of the current table (R51). -/
def State.workingEpoch (s : State) : Option Epoch :=
  if s.form.node = .lead then s.form.current.map Table.epoch else s.timer.followed.map Prod.snd

/-- A MEMBER is SYNCED when its current table's epoch equals its working epoch (R60, DEDUCED, log 11). -/
def State.synced (s : State) : Bool :=
  s.form.node == .member && s.form.current.isSome
    && s.form.current.map Table.epoch == s.timer.followed.map Prod.snd

/-- Whether both armed tables are held (R55). -/
def State.holdsArmed (s : State) : Bool := s.form.armedA.isSome && s.form.armedB.isSome

/-- A pair of armed tables that counts under a working epoch: both have the epoch above it (R51, R63). -/
def armedUnder (ep : Epoch) (a b : Table) : Bool := a.epoch == ep + 1 && b.epoch == ep + 1

/-- A follower that holds both armed tables complete under its working epoch + 1 (R63). -/
def State.armedComplete (s : State) : Bool :=
  match s.form.armedA, s.form.armedB, s.workingEpoch with
  | some a, some b, some ep => armedUnder ep a b
  | _, _, _ => false

/-- The role of an end under the steering; REF is E1 without one (R52, Positions and ends). -/
def State.sideOf (s : State) (e : EndId) : Side :=
  match s.form.steering with
  | some st => st.orientation.sideOf e
  | none => Orientation.facing.sideOf e

/-- Whether an end is outer under the steering (R52). -/
def State.outer (s : State) (e : EndId) : Bool :=
  match s.form.steering with
  | some st => st.outer e
  | none => false

/-- Whether an end is inner under the steering (R52). -/
def State.inner (s : State) (e : EndId) : Bool :=
  match s.form.steering with
  | some st => !st.outer e
  | none => false

/-- The upstream end: REF when the followed leader stands before the part in the installed table, FAR when beyond
it (R52). The leader is looked up by the followed tag as it now is (DEDUCED, log 10). A leader has none. -/
def State.upstream (s : State) : Option EndId :=
  match s.form.steering, s.timer.followed with
  | some st, some (t, _) =>
    if s.form.node = .lead then none
    else
      let pL := positionOf s.entries t
      if pL = 0 || pL = st.position then none
      else some (st.orientation.endOn (if pL < st.position then .ref else .far))
  | _, _ => none

/-- Whether join detection runs on an end: outer, ACTIVE or SEGREGATED, in LEAD or MEMBER (R15). -/
def State.detecting (s : State) (e : EndId) : Bool :=
  (s.form.node == .lead || s.form.node == .member) && s.outer e
    && (s.condition e == .active || s.condition e == .segregated)

/-- A leader that has sent its first generated mark: LEAD and no led table waits (R138). -/
def State.leading (s : State) : Bool := s.form.node == .lead && s.form.led.isNone

/-! ## Time -/

/-- Train time as the cycle timer holds it (R27). -/
def State.trainTime (s : State) : TrainTime :=
  { round := s.timer.round, index := s.timer.index, tick := s.timer.counter }

/-- A capture, or the time of a queuing: untimed in DETACHED, LISTEN and APPLICANT (R4, R184). -/
def State.capture (s : State) : Capture :=
  if s.form.node = .detached || s.form.node = .listen || s.form.node = .applicant then none
  else some s.trainTime

/-- The slot count in use: of the plan in force, or from the latched mark where there is none (R69). -/
def State.slots (s : State) : Nat :=
  match s.planner.inForce, s.timer.latched with
  | some p, _ => p.slots
  | none, some m => slotCount m.period m.n
  | none, none => 0

/-- The arrival cell of a record whose first octet arrives now (R25). -/
def State.arrivalCell (s : State) : Option (Nat × Nat) :=
  let x := s.timer.counter
  if s.timer.lock = .idle then none
  else if 40 ≤ x && (x - 40) / 100 < s.slots then some ((x - 40) / 100, s.timer.index) else none

/-- The petition cell of a position: slot and cycle index (R26). -/
def petitionCell (p : Nat) : Nat × Nat := ((p - 1) % 4 + 1, (p - 1) / 4)

/-- The applicant cell of a formation of n cars (R26). -/
def applicantCell (n : Nat) : Option (Nat × Nat) := if n ≤ 15 then some (n % 4 + 1, n / 4) else none

/-! ## Sticky flags (R180) -/

def State.setFlags (s : State) (f : StickyFlags → StickyFlags) : State :=
  { s with link := { s.link with flags := f s.link.flags } }

/-- LINE_ERRORS of an end is set. -/
def State.lineError (s : State) (e : EndId) : State :=
  s.setFlags fun f => match e with
    | .e1 => { f with lineErrors1 := true }
    | .e2 => { f with lineErrors2 := true }

/-- ALIEN_MARKS is set (R41). -/
def State.alienMark (s : State) : State := s.setFlags fun f => { f with alienMarks := true }

end Sys2Proof.Machine
end

