-- ==== Sys2Proof/Machine/Frames.lean ====
section
/-! DEFINITION. The car link frames the part sends, octet by octet: replies and notices (R177 to R186, R188, 11_record_layouts). -/

namespace Sys2Proof.Machine

open Sys2Proof

/-! ## The frame (11, The car link frame; R188) -/

/-- The start octet. -/
def startOctet : Octet := 126

/-- The octets of a frame: start octet, length, kind, tag, body and the check over the four between (R188). -/
def frameOctets (f : Frame) : List Octet :=
  let mid := [BitVec.ofNat 8 f.body.length, f.kind] ++ natOctets 2 f.tag.toNat ++ f.body
  startOctet :: (mid ++ natOctets 2 (crc16 mid).toNat)

/-! ## Fields (R186; what Record Layouts leaves open of them is DESIGN CHOICE, log 27) -/

/-- A field that may be absent: a flag, then the value, zeros when absent, as the mark lays its other tag out. -/
def presence {α : Type} (width : Nat) (octets : α → List Octet) : Option α → List Octet
  | some a => flagOctet true :: octets a
  | none => flagOctet false :: List.replicate width 0

/-- One octet of a number. -/
def byte (n : Nat) : List Octet := [BitVec.ofNat 8 n]

def tagOctets (t : Tag) : List Octet := natOctets 6 t.toNat

def Orientation.code : Orientation → Nat
  | .facing => 0 | .reversed => 1

/-- The triple of a train time: round count, cycle index, tick, as a BREAK's capture has it. -/
def timeOctets (t : TrainTime) : List Octet := natOctets 2 t.round.toNat ++ byte t.index ++ natOctets 2 t.tick

/-- A capture, or the untimed marker (R4). -/
def captureOctets (c : Capture) : List Octet := presence 5 timeOctets c

def AreaId.code : AreaId → Nat
  | .identity => 0 | .service => 1

def EndMode.code : EndMode → Nat
  | .line => 0 | .isolated => 1

/-- The code of an outcome, octet 0 of a reply's body. -/
def Outcome.code : Outcome → Octet
  | .done => 0 | .accepted => 1 | .wrongState => 2 | .busy => 3 | .protected_ => 4 | .notConfigured => 5
  | .full => 6 | .notFound => 7 | .badArgument => 8 | .malformed => 9 | .unknown => 10

/-- A reason octet, 0 for none. -/
def reasonOctets (r : Option Reason) : List Octet := byte ((r.map Reason.code).getD 0)

def NodeState.number : NodeState → Nat
  | .detached => 0 | .listen => 1 | .applicant => 2 | .lead => 3 | .member => 4 | .seek => 5 | .orphan => 6

def LockState.number : LockState → Nat
  | .idle => 0 | .generating => 1 | .acquiring => 2 | .locked => 3 | .flywheel => 4

def Condition.number : Condition → Nat
  | .bypass => 0 | .isolated => 1 | .segregated => 2 | .active => 3

def ContactState.number : ContactState → Nat
  | .unknown => 0 | .opened => 1 | .closed => 2

def CarrierState.number : CarrierState → Nat
  | .absent => 0 | .present => 1

def DetectState.number : DetectState → Nat
  | .quiet => 0 | .sighting => 1 | .collecting => 2 | .reported => 3 | .segregated => 4

def EnrolStatus.number : EnrolStatus → Nat
  | .gathering => 0 | .waiting => 1 | .full => 2 | .enrolling => 3 | .accepted => 4 | .refused _ => 5

/-- The reason a REFUSED applicant holds. -/
def EnrolStatus.reason : EnrolStatus → Option Reason
  | .refused r => r
  | .gathering | .waiting | .full | .enrolling | .accepted => none

def CellState.number : CellState → Nat
  | .empty => 0 | .fresh => 1 | .stale => 2 | .suspended => 3 | .gone => 4

def JoinOutcome.number : JoinOutcome → Nat
  | .principal => 0 | .absorbed => 1 | .refused => 2 | .abandoned => 3 | .stale => 4 | .joined => 5 | .resumed => 6
  | .enrolled => 7 | .enrollRefused => 8

/-- DONE and STALE are answer outcomes and have their codes; REMNANT is none (R89, R143). -/
def BreakOutcome.code : BreakOutcome → Octet
  | .done => BitVec.ofNat 8 AnswerOutcome.done.code
  | .stale => BitVec.ofNat 8 AnswerOutcome.stale.code
  | .remnant => Config.codeOf .breakOutcome 2

/-- GRANTED is an answer outcome and has its code (R89). -/
def CabEvent.code : CabEvent → Octet
  | .granted => BitVec.ofNat 8 AnswerOutcome.granted.code
  | .lost => Config.codeOf .cabEvent 1
  | .released => Config.codeOf .cabEvent 2

/-- STALE is an answer outcome and has its code (R89, R118). -/
def JoinOutcome.code (o : JoinOutcome) : Octet :=
  if o = .stale then BitVec.ofNat 8 AnswerOutcome.stale.code else Config.codeOf .joinOutcome o.number

/-- The kind of the table that READ_TABLE reads: CURRENT is a table kind and has its code; HEARD is none (R182). -/
def tableReadCode (heard : Bool) : Octet :=
  if heard then Config.codeOf .tableRead 1 else BitVec.ofNat 8 TableKind.current.code

def StoreOpKind.number : StoreOpKind → Nat
  | .write => 0 | .protect => 1

/-- A place: its kind and a, 0 for BEFORE_FIRST. -/
def Place.octets : Place → List Octet
  | .after a => byte 0 ++ byte a
  | .beforeFirst => byte 1 ++ byte 0

/-! ## Replies (R177 to R183) -/

/-- A reported image cell (R160). -/
def CellReport.octets (c : CellReport) : List Octet :=
  tagOctets c.tag ++ byte c.channel ++ byte c.position ++ [Config.codeOf .cellState c.state.number]
    ++ presence 32 (fun p : List Octet => p) c.payload ++ byte c.publisherAge ++ byte c.receiveAge ++ captureOctets c.time

/-- One end of a STATUS body (R179). -/
def EndReport.octets (r : EndReport) : List Octet :=
  [Config.codeOf .condition r.condition.number, BitVec.ofNat 8 r.mode.code, Config.codeOf .contactState r.contact.number,
    Config.codeOf .carrierState r.carrier.number, Config.codeOf .detectState r.detect.number, BitVec.ofNat 8 r.attempts]

/-- The applicant group of a STATUS body (R119, R179). -/
def ApplicantReport.octets (r : ApplicantReport) : List Octet :=
  [Config.codeOf .enrolStatus r.status.number] ++ reasonOctets r.status.reason ++ presence 2 Place.octets r.place
    ++ presence 1 (fun o : Orientation => byte o.code) r.orientation ++ byte r.attempt

/-- The six sticky flags in the order of R180's table. -/
def StickyFlags.octets (f : StickyFlags) : List Octet :=
  [f.lineErrors1, f.lineErrors2, f.alienMarks, f.serviceDefaulted, f.inputOverrun, f.eventsLost].map flagOctet

/-- The body of a STATUS reply, group by group (R179). -/
def StatusReport.octets (r : StatusReport) : List Octet :=
  let sync := match r.synced with
    | none => 0
    | some true => 1
    | some false => 2
  [Config.codeOf .nodeState r.node.number, Config.codeOf .synced sync]
    ++ presence 1 (fun e : Epoch => [e]) r.epoch ++ presence 1 byte r.size ++ byte r.position
    ++ presence 1 (fun o : Orientation => byte o.code) r.orientation
    ++ presence 6 tagOctets r.leader ++ presence 1 (fun p : Procedure => byte p.code) r.procedure
    ++ presence 1 byte r.countdown
    ++ byte r.cab ++ byte r.heading.code
    ++ [Config.codeOf .lockState r.lock.number] ++ byte r.early ++ byte r.missed
    ++ r.end1.octets ++ r.end2.octets ++ presence 8 ApplicantReport.octets r.applicant
    ++ [Config.codeOf .areaCondition (if r.identityGood then 0 else 1),
        Config.codeOf .areaCondition (if r.serviceGood then 0 else 2)]
    ++ presence 1 (fun a : AreaId => byte a.code) r.storeOp ++ byte r.notices ++ r.flags.octets

/-- The IDENTITY values in the order of their field codes (09, 11). -/
def Identity.octets (i : Identity) : List Octet :=
  tagOctets i.tag ++ natOctets 4 i.unit.toNat ++ [flagOctet i.fixed1, flagOctet i.fixed2, flagOctet i.cab]

/-- A channel octet of the stored list, the granted-rate bits fill (11). -/
def ChannelSetting.octet (c : ChannelSetting) : Octet :=
  BitVec.ofNat 8 (c.cls.code + 4 * c.requested.code + (if c.sided then 128 else 0))

/-- The SERVICE values in the order of their field codes (09, 11). -/
def Service.octets (v : Service) : List Octet :=
  natOctets 2 v.period ++ byte v.tolerance ++ byte v.silenceLimit ++ byte v.formationLimit ++ byte v.staleLimit
    ++ natOctets 2 v.sampleInterval ++ byte v.qualifyCount ++ byte v.armedTimeout
    ++ byte v.channels.length ++ v.channels.map ChannelSetting.octet

/-- The clamped markers in the order of their settings (R167). -/
def ClampedMarkers.octets (c : ClampedMarkers) : List Octet :=
  [c.period, c.tolerance, c.silenceLimit, c.formationLimit, c.staleLimit, c.sampleInterval, c.qualifyCount,
    c.armedTimeout].map flagOctet

/-- The further contents of a reply, in the order its rule lists them (11). Family code, part code and revision number have two
octets each (DESIGN CHOICE, log 90). -/
def ReplyBody.octets : ReplyBody → List Octet
  | .empty => []
  | .identify family part revision tag node =>
    natOctets 2 family ++ natOctets 2 part ++ natOctets 2 revision ++ presence 6 tagOctets tag
      ++ [Config.codeOf .nodeState node.number]
  | .status r => r.octets
  | .cell c => c.octets
  | .table heard epoch size first entries =>
    [tableReadCode heard, epoch] ++ byte size ++ byte first
      ++ (entries.map (presence 24 entryOctets)).flatten
  | .storedIdentity good protect values =>
    [Config.codeOf .areaCondition (if good then 0 else 1), flagOctet protect] ++ presence 13 Identity.octets values
  | .storedService defaulted protect values =>
    [Config.codeOf .areaCondition (if defaulted then 2 else 0), flagOctet protect] ++ values.octets
  | .snapshotIdentity values => presence 13 Identity.octets values
  | .snapshotService values => presence 11 Service.octets values
  | .writtenIdentity values protect => values.octets ++ [flagOctet protect]
  | .writtenService values protect clamped => values.octets ++ [flagOctet protect] ++ clamped.octets

/-- The octets of a reply's frame: kind and echoed tag, then the outcome and the further contents (R177, R188). -/
def Reply.octets (r : Reply) : List Octet :=
  frameOctets { kind := r.kind, tag := r.tag, body := r.outcome.code :: r.body.octets }

/-! ## Notices (R184) -/

/-- The kind of a notice's frame. -/
def NoticeBody.kind : NoticeBody → Octet
  | .formation _ _ _ _ _ => 65 | .endEvent _ _ _ => 66 | .fixedOpened _ _ => 67 | .joinOutcome _ _ _ _ => 68
  | .splitOutcome _ _ => 69 | .breakOutcome _ _ => 70 | .cab _ => 71 | .petitionAnswer _ _ _ => 72
  | .change _ => 73 | .phaseJump _ _ _ => 74 | .storeDone _ _ _ => 75

/-- What changed at an end event: its kind and the new state (R2, R3). -/
def EndEvent.octets : EndEvent → List Octet
  | .contact c => [Config.codeOf .endEventKind 0, Config.codeOf .contactState c.number]
  | .carrier c => [Config.codeOf .endEventKind 1, Config.codeOf .carrierState c.number]

/-- The outcome of a split and its reason, or PARTED with side, epoch, size and joint tags (R136), without reason octet (DESIGN
CHOICE, log 89). -/
def SplitOutcome.octets : SplitOutcome → List Octet
  | .answer out reason => byte out.code ++ reasonOctets reason
  | .parted r =>
    [Config.codeOf .splitOutcome 0, Config.codeOf .splitSide (if r.sideA then 0 else 1), r.epoch] ++ byte r.size
      ++ presence 12 (fun j : Tag × Tag => tagOctets j.1 ++ tagOctets j.2) r.joint

/-- The contents of a notice, in the order of R184's table. The outcome of a STORE_DONE has its code as a reply's outcome (DESIGN
CHOICE, log 94). -/
def NoticeBody.octets : NoticeBody → List Octet
  | .formation epoch size position orientation leader =>
    [epoch] ++ byte size ++ byte position ++ presence 1 (fun o : Orientation => byte o.code) orientation
      ++ tagOctets leader
  | .endEvent e event capture => byte (endCode (some e)) ++ event.octets ++ captureOctets capture
  | .fixedOpened e capture => byte (endCode (some e)) ++ captureOctets capture
  | .joinOutcome outcome reason e other =>
    [outcome.code] ++ reasonOctets reason ++ byte (endCode e) ++ presence 6 tagOctets other
  | .splitOutcome kind outcome => byte kind.code ++ outcome.octets
  | .breakOutcome outcome want =>
    [outcome.code]
      ++ presence 8 (fun w : Cause × Capture × Bool => byte w.1.code ++ captureOctets w.2.1 ++ [flagOctet w.2.2]) want
  | .cab event => [event.code]
  | .petitionAnswer kind outcome reason => byte kind.code ++ byte outcome.code ++ reasonOctets reason
  | .change cell => cell.octets
  | .phaseJump leader time jump => tagOctets leader ++ timeOctets time ++ natOctets 4 (BitVec.ofInt 32 jump).toNat
  | .storeDone area kind outcome => byte area.code ++ [Config.codeOf .storeOpKind kind.number, outcome.code]

/-- The octets of a notice's frame: the tag is 0 and the notice number (R184, R188). The train time of its queuing is sent,
before its contents (DESIGN CHOICE, log 83). -/
def Notice.octets (n : Notice) : List Octet :=
  frameOctets { kind := n.body.kind, tag := n.number.zeroExtend 16, body := captureOctets n.time ++ n.body.octets }

end Sys2Proof.Machine
end

