-- ==== Sys2Proof/Machine/Ops.lean ====
section
/-! DEFINITION. The shared operations: time passing, the transmit paths, notices, and how every step ends
(R5, R10, R23, R176, R184). -/

namespace Sys2Proof.Machine

open Sys2Proof

/-! ## Transmit paths (R10) -/

/-- A transmitter goes on to its waiting record, which starts as the one in progress ends. -/
def EndUnit.sendWaiting (u : EndUnit) : EndUnit :=
  match u.sending, u.waiting with
  | some p, some w => { u with sending := some { record := w, ends := p.ends + w.octets.length }, waiting := none }
  | some _, none => { u with sending := none }
  | none, _ => u

/-- A record becomes ready at an instant: sent on an idle transmitter, else it waits, else it is dropped (R10). -/
def EndUnit.transmit (at_ : Nat) (r : TxRecord) (u : EndUnit) : EndUnit :=
  match u.sending, u.waiting with
  | none, _ => { u with sending := some { record := r, ends := at_ + r.octets.length } }
  | some _, none => { u with waiting := some r }
  | some _, some _ => u

/-- The relayed copy on its way becomes ready. -/
def EndUnit.relay (u : EndUnit) : EndUnit :=
  match u.coming with
  | some (at_, r) => ({ u with coming := none } : EndUnit).transmit at_ r
  | none => u

/-- The next thing that happens at a transmitter, if it happens by instant `t`: the record in progress ends, or a relayed
copy becomes ready, the end first when both fall together. -/
def EndUnit.sendNext (t : Nat) (u : EndUnit) : EndUnit :=
  let ends := match u.sending with
    | some p => decide (p.ends ≤ t)
    | none => false
  let ready := match u.coming, u.sending with
    | some (at_, _), some p => decide (at_ ≤ t) && decide (at_ < p.ends)
    | some (at_, _), none => decide (at_ ≤ t)
    | none, _ => false
  if ready then u.relay else if ends then u.sendWaiting else u

/-- A transmitter at instant `t`. At most four things can have happened: a copy became ready, and the record in progress,
the waiting one and the copy ended. -/
def EndUnit.sentBy (t : Nat) (u : EndUnit) : EndUnit :=
  (((u.sendNext t).sendNext t).sendNext t).sendNext t

/-- A relayed copy on an end, of a record of `length` octets whose first one comes at the instant `first`; the copy becomes
ready 4 ticks later. (DESIGN CHOICE, log 3) -/
def State.sendRelayed (s : State) (e : EndId) (first length : Nat) (os : List Octet) : State :=
  s.mapEnd e fun u =>
    { u with coming := some (first + Config.relayTicks, { octets := os, heard := some (first, first + length) }) }

/-- An own record on an end. -/
def State.sendOwnOn (s : State) (e : EndId) (os : List Octet) : State :=
  s.mapEnd e (EndUnit.transmit s.now { octets := os, heard := none })

/-- An own record on every ACTIVE end, with the end's role as origin side (R11). -/
def State.sendOwn (s : State) (make : Side → List Octet) : State :=
  let one := fun (s : State) (e : EndId) =>
    if s.condition e = .active then s.sendOwnOn e (make (s.sideOf e)) else s
  one (one s .e1) .e2

/-! ## Time (R3, R23, R44, R132) -/

/-- A count after ticks that make it rise up to a limit and then ticks of the other kind, of which one restarts it (R3). -/
def tickCount (limit count rising other : Nat) : Nat := if 0 < other then 0 else min limit (count + rising)

/-- The carrier detector after `dt` ticks. The octets of a record are active ticks; the others are as the carrier state
stands: idle fill in PRESENT, silence in ABSENT (R3, DESIGN CHOICE, log 26). -/
def EndUnit.countTicks (dt : Nat) (u : EndUnit) : EndUnit :=
  if u.mode = .isolated then u
  else
    let heard := min dt u.octetsLeft
    let rest := dt - heard
    let left := u.octetsLeft - heard
    match u.carrier with
    | .present =>
      { u with activeCount := tickCount Config.carrierActiveTicks u.activeCount dt 0
               silentCount := tickCount Config.carrierSilentTicks u.silentCount 0 dt
               octetsLeft := left
               freeTicks := if 0 < heard then rest else min Config.carrierSilentTicks (u.freeTicks + dt) }
    | .absent =>
      { u with activeCount := tickCount Config.carrierActiveTicks u.activeCount heard rest
               silentCount := tickCount Config.carrierSilentTicks (if 0 < heard then 0 else u.silentCount) rest 0
               octetsLeft := left
               freeTicks := min Config.carrierSilentTicks (u.freeTicks + dt) }

/-- Whether a CARRIER_CHANGE can stand at this instant: the 100 active ticks, or the 200 silent ticks, fit between now and
the last tick that an event fixed otherwise (R3). -/
def EndUnit.carrierDue (u : EndUnit) : Bool :=
  match u.carrier with
  | .absent => decide (Config.carrierActiveTicks ≤ u.freeTicks)
  | .present => decide (Config.carrierSilentTicks ≤ u.freeTicks)

/-- `dt` ticks pass: every running counter of the part rises. Without power nothing counts. What is ready on the relay path
by the new instant takes its place before an own record of that instant, also where it only waits (R10, DESIGN CHOICE,
log 101). -/
def State.advance (dt : Nat) (s : State) : State :=
  if s.powered then
    { s with
      now := s.now + dt
      e1 := (s.e1.countTicks dt).sentBy (s.now + dt)
      e2 := (s.e2.countTicks dt).sentBy (s.now + dt)
      timer := if s.timer.lock = .idle then s.timer else { s.timer with counter := s.timer.counter + dt }
      form := if s.form.node = .listen then { s.form with listenTimer := s.form.listenTimer + dt } else s.form
      pet := match s.pet.split with
        | some sp => if sp.stage = .armed then
            { s.pet with split := some { sp with armedTime := sp.armedTime + dt } } else s.pet
        | none => s.pet }
  else { s with now := s.now + dt, e1 := s.e1.sentBy (s.now + dt), e2 := s.e2.sentBy (s.now + dt) }

/-- Time passes up to an instant; none if it is past. -/
def State.advanceTo (t : Nat) (s : State) : State := s.advance (t - s.now)

/-! ## Notices (R184) -/

/-- The ranks in which notices of one instant join the queue (R184). Notices that R184 does not list come
directly behind FORMATION (DESIGN CHOICE, log 18). -/
def rankFormation : Nat := 0
def rankOther : Nat := 1
def rankOutcome : Nat := 2
def rankStale : Nat := 3
def rankCab : Nat := 4
def rankChange : Nat := 5

/-- A notice is made in this step. -/
def State.notify (s : State) (rank : Nat) (b : NoticeBody) : State :=
  { s with outbox := s.outbox ++ [(rank, b)] }

/-- Whether a notice is a CHANGE notice. -/
def NoticeBody.isChange : NoticeBody → Bool
  | .change _ => true
  | _ => false

/-- The cell a CHANGE notice is about. -/
def NoticeBody.changeOf : NoticeBody → Option (Tag × Nat)
  | .change c => some (c.tag, c.channel)
  | _ => none

/-- The oldest notice of a kind other than CHANGE leaves (R184). -/
def dropOldestOther : List Notice → List Notice
  | [] => []
  | n :: rest => if n.body.isChange then n :: dropOldestOther rest else rest

/-- A notice joins the tail: from a full queue the oldest of another kind than CHANGE is discarded and EVENTS_LOST
set; the notice takes the notice number, which rises by one (R184). It is timed by the node state at the end of the step,
also where that step enters or leaves APPLICANT (R4, DESIGN CHOICE, log 108). -/
def State.joinTail (s : State) (b : NoticeBody) : State :=
  let full := decide (Config.noticeSize ≤ s.link.notices.length)
  let kept := if full then dropOldestOther s.link.notices else s.link.notices
  let fl := if full then { s.link.flags with eventsLost := true } else s.link.flags
  { s with link := { s.link with
      notices := kept ++ [{ number := s.link.number, time := s.capture, body := b }]
      number := s.link.number + 1
      flags := fl } }

/-- A notice joins the queue; a CHANGE of a cell whose CHANGE still waits replaces it in place (R162, R184). -/
def State.joinNotice (s : State) (b : NoticeBody) : State :=
  if b.isChange && s.link.notices.any (fun n => n.body.changeOf == b.changeOf) then
    { s with link := { s.link with
        notices := s.link.notices.map fun n =>
          if n.body.changeOf == b.changeOf then { n with time := s.capture, body := b } else n } }
  else s.joinTail b

/-- The notices of the step join the queue, in R184's order; the CHANGE notices last, in watch list order. -/
def State.flushNotices (s : State) : State :=
  let inRank := fun r => (s.outbox.filter fun p => p.1 == r).map Prod.snd
  let changes := (s.chan.watch.map fun w => (inRank rankChange).filter fun b => b.changeOf == some w).flatten
  let all := ((List.range rankChange).map inRank).flatten ++ changes
  all.foldl State.joinNotice { s with outbox := [] }

/-! ## The car link's transmit path (R175, R176, R181) -/

/-- On an idle path the waiting reply begins, and the request's frame leaves the holding; else the oldest notice begins;
between a served RESTART and the restart no notice does. What begins is laid out whole, with its check (R188). -/
def State.beginFrame (s : State) : State :=
  match s.link.tx with
  | .idle =>
    match s.link.reply with
    | some r => { s with link := { s.link with
        tx := .reply r, line := r.octets, reply := none, holding := s.link.holding.tail } }
    | none =>
      if s.link.restarting then s
      else match s.link.notices with
        | [] => s
        | n :: rest => { s with link := { s.link with tx := .notice n, line := n.octets, notices := rest } }
  | _ => s

/-! ## How a step ends -/

/-- Whether a condition lets a record that waits be sent: own records only in ACTIVE, none in ISOLATED and SEGREGATED
(R5, R6, R7, R11, DEDUCED, log 14). -/
def Condition.lets (c : Condition) (r : TxRecord) : Bool :=
  match c with
  | .active => true
  | .bypass => !r.own
  | .isolated | .segregated => false

/-- A transmitter keeps of its records those that a test keeps; `sends` is the test of the record being sent. What waits
begins now where that one is cut off. -/
def EndUnit.keepRecords (now : Nat) (sends : TxProgress → Bool) (keeps : TxRecord → Bool) (u : EndUnit) : EndUnit :=
  let waits := u.waiting.filter keeps
  let comes := u.coming.filter fun r => keeps r.2
  match u.sending with
  | some p =>
    if sends p then { u with waiting := waits, coming := comes }
    else { u with sending := waits.map fun r => { record := r, ends := now + r.octets.length }, waiting := none,
                  coming := comes }
  | none => { u with waiting := none, coming := comes }

/-- An end whose condition changes now: a record already being sent is cut off; one that begins now, a copy that is not
ready yet, and the record that waits are sent if the new condition lets them (R5, DEDUCED, log 14). -/
def EndUnit.cutOff (now : Nat) (c : Condition) (u : EndUnit) : EndUnit :=
  u.keepRecords now (fun p => decide (now + p.record.octets.length ≤ p.ends) && c.lets p.record) c.lets

/-- The end opposite one whose condition changes now: a copy of a record that is still arriving there is cut off, whether it
is being sent, waits or is not ready yet (R5, DEDUCED, log 14). -/
def EndUnit.cutSource (now : Nat) (u : EndUnit) : EndUnit :=
  u.keepRecords now (fun p => !p.record.arriving now) fun r => !r.arriving now

/-- The transmit paths follow the ends' conditions: `before` is the state as the step began (R5). -/
def State.recondition (before s : State) : State :=
  let one := fun (s : State) (e : EndId) =>
    if before.condition e = s.condition e then s
    else (s.mapEnd e (EndUnit.cutOff s.now (s.condition e))).mapEnd e.other (EndUnit.cutSource s.now)
  one (one s .e1) .e2

/-- Whether an end is an outer one of a formation, the node state being LEAD or MEMBER. -/
def State.outermost (s : State) (e : EndId) : Bool := (s.form.node == .lead || s.form.node == .member) && s.outer e

/-- Whether the standing conditions of join detection hold on an end: it is outer, not ISOLATED, and the node state is
LEAD or MEMBER (R15). -/
def State.detectable (s : State) (e : EndId) : Bool := s.outermost e && (s.endUnit e).mode != .isolated

/-- Join detection back in QUIET: sighting record, foreign table, adjacent foreign car and join watch are cleared (R15). -/
def EndUnit.toQuiet (u : EndUnit) : EndUnit :=
  { u with phase := .quiet, sighting := none, foreign := none, adjacent := none, watch := .none,
           answered := false, foreignCab := (0, .none) }

/-- The join begun at an end is over for it (R20, R118). -/
def EndUnit.forgetJoin (u : EndUnit) : EndUnit := { u with joining := none }

/-- What an end does as it loses the standing conditions of detection, or its outer place: a join that was begun there has
then completed, or its leader is gone (R15, R20, R118). -/
def EndUnit.rest (quiet gone : Bool) (u : EndUnit) : EndUnit :=
  let v := if quiet then u.toQuiet else u
  if gone then v.forgetJoin else v

/-- Detection returns to QUIET on an end that stops being outer, becomes ISOLATED, or leaves LEAD and MEMBER (R15). -/
def State.restDetection (before s : State) : State :=
  let one := fun (s : State) (e : EndId) =>
    s.mapEnd e (EndUnit.rest (before.detectable e && !s.detectable e) (before.outermost e && !s.outermost e))
  one (one s .e1) .e2

/-- Another leader follows: no join of the one before goes on (R118). -/
def State.forgetJoins (s : State) : State := (s.mapEnd .e1 EndUnit.forgetJoin).mapEnd .e2 EndUnit.forgetJoin

/-- The end of a step that began in `before`. -/
def State.settle (before s : State) : State :=
  (State.recondition before (State.restDetection before s)).flushNotices.beginFrame

/-- A step that took place. -/
def finish (before s : State) : Result := .next (State.settle before s)

/-- A command that reaches a powered part; without power its event does not take place (R181, R185, DESIGN CHOICE, log 1). -/
def whenPowered (s : State) (f : State → Result) : Result := if s.powered then f s else .next s

end Sys2Proof.Machine
end

