-- ==== Sys2Proof/Machine/EndUnits.lean ====
section
/-! DEFINITION. The end units' own changes: the contact filter, carrier, segregation, and what join answers and foreign
records do to join detection (R1, R3, R7, R15 to R21). -/

namespace Sys2Proof.Machine

open Sys2Proof

/-! ## Contact filter (R1) -/

/-- One sample taken by the contact filter; the second part tells whether the contact qualifies (R1). -/
def EndUnit.sample (q : Nat) (closed : Bool) (u : EndUnit) : EndUnit × Bool :=
  let level : ContactState := if closed then .closed else .opened
  if u.contact = level then ({ u with filterCount := 0, lastSample := some closed }, false)
  else
    let restart := match u.lastSample with
      | some l => l != closed
      | none => false
    let count := if restart then 1 else u.filterCount + 1
    if q ≤ count then ({ u with contact := level, filterCount := 0, lastSample := some closed }, true)
    else ({ u with filterCount := count, lastSample := some closed }, false)

/-! ## Carrier (R3) -/

/-- The carrier becomes PRESENT: 100 consecutive active ticks. -/
def EndUnit.carrierUp (u : EndUnit) : EndUnit :=
  { u with carrier := .present, activeCount := Config.carrierActiveTicks, silentCount := 0, freeTicks := 0 }

/-- The carrier becomes ABSENT: 200 consecutive silent ticks. -/
def EndUnit.carrierDown (u : EndUnit) : EndUnit :=
  { u with carrier := .absent, activeCount := 0, silentCount := Config.carrierSilentTicks, octetsLeft := 0,
           freeTicks := 0 }

/-- The end mode as SET_END_MODE leaves it: in ISOLATED and on the return to LINE the carrier is ABSENT with both
counts cleared (R3, R6). -/
def EndUnit.withMode (m : EndMode) (u : EndUnit) : EndUnit :=
  { u with mode := m, carrier := .absent, activeCount := 0, silentCount := 0, octetsLeft := 0, freeTicks := 0 }

/-- A record of so many octets begins to arrive: each is an active tick, and restarts the count of silent ones in PRESENT
(R3, DESIGN CHOICE, log 26). -/
def EndUnit.hears (length : Nat) (u : EndUnit) : EndUnit :=
  { u with octetsLeft := length, freeTicks := if u.carrier = .present then 0 else u.freeTicks }

/-! ## Segregation and the answers to JOIN_SEEN (R7, R21) -/

/-- The segregated flag is set; detection becomes SEGREGATED, the join watch NONE, the foreign table is discarded (R21). (DEDUCED, log 49) -/
def EndUnit.segregate (u : EndUnit) : EndUnit :=
  { u with segregated := true, phase := .quiet, foreign := none, watch := .none, answered := false }

/-- Detection back in SIGHTING with the sighting record kept and count 0 (R18, R21). -/
def EndUnit.resight (u : EndUnit) : EndUnit :=
  { u with phase := .sighting, sighting := u.sighting.map fun r => { r with count := 0 },
           foreign := none, adjacent := none, watch := .none, answered := false }

/-- An answer to the end's JOIN_SEEN reaches it; it acts on an end in REPORTED only (R15, R20, R21). JOIN_ABANDONED with a
reason other than DEADLINE and BREAK changes nothing (DESIGN CHOICE, log 77). -/
def EndUnit.takeAnswer (out : AnswerOutcome) (reason : Option Reason) (u : EndUnit) : EndUnit :=
  if u.phase = .reported && !u.segregated then
    match out, reason with
    | .joinPrincipal, _ => { u with watch := .quietWatch false, answered := true }
    | .joinAbsorbed, _ => { u with watch := .admitWatch, answered := true }
    | .joinRefused, _ => u.segregate
    | .joinAbandoned, some .deadline =>
      let v := { u with attempts := min 3 (u.attempts + 1) }
      if v.attempts = 3 then v.segregate else v.resight
    | .joinAbandoned, some .brk => u.resight
    | .stale, _ => u.resight
    | _, _ => u
  else u

/-- The leader of the other formation that an answer to the end's JOIN_SEEN is about: of the join begun where the answer
abandons it, else of the JOIN_SEEN queued last (R118). A join is the end's from the answer that begins it until it
completes, is answered again or has lost its leader; none where the end has queued no JOIN_SEEN since START (DESIGN CHOICE,
log 63). -/
def EndUnit.otherLeader (out : AnswerOutcome) (u : EndUnit) : Option Tag :=
  if out = .joinAbandoned then u.joining.orElse fun _ => u.reported else u.reported

/-- An answer to the end's JOIN_SEEN, with the join it begins or ends remembered (R20, R21, R118). -/
def EndUnit.joinAnswer (out : AnswerOutcome) (reason : Option Reason) (u : EndUnit) : EndUnit :=
  { u.takeAnswer out reason with
    joining := if out = .joinPrincipal || out = .joinAbsorbed then u.otherLeader out else none }

/-! ## Foreign records at an outer end (R14 to R18) -/

/-- The sighting record a mark makes, with count 1 (R16). -/
def sightingOf (now : Nat) (m : MarkFields) : Sighting :=
  { leader := m.leader, epoch := m.epoch, period := m.period, count := 1, arrival := now }

/-- Detection in SIGHTING with a mark as its sighting record (R16, R17, R19). -/
def EndUnit.sight (now : Nat) (m : MarkFields) (u : EndUnit) : EndUnit :=
  { u with phase := .sighting, sighting := some (sightingOf now m), foreign := none, watch := .none,
           answered := false }

/-- The arrival of a foreign mark is recorded. -/
def EndUnit.arrived (now : Nat) (u : EndUnit) : EndUnit :=
  { u with sighting := u.sighting.map fun r => { r with arrival := now } }

/-- Whether a mark has the leader tag and epoch of the sighting record. -/
def EndUnit.sameForeign (m : MarkFields) (u : EndUnit) : Bool :=
  match u.sighting with
  | some r => r.leader == m.leader && r.epoch == m.epoch
  | none => false

/-- A well-formed foreign mark and the detection state (R16, R17, R19). -/
def EndUnit.foreignMark (now : Nat) (m : MarkFields) (u : EndUnit) : EndUnit :=
  match u.phase with
  | .quiet => u.sight now m
  | .sighting =>
    if u.sameForeign m then
      let count := ((u.sighting.map Sighting.count).getD 0) + 1
      { u.arrived now with
          sighting := (u.arrived now).sighting.map fun r => { r with count := min 3 count }
          phase := if 3 ≤ count then .collecting else .sighting
          foreign := none }
    else u.sight now m
  | .collecting => if u.sameForeign m then u.arrived now else { u.sight now m with adjacent := none }
  | .reported =>
    if u.answered || u.sameForeign m then u.arrived now else { u.sight now m with adjacent := none }

/-- A foreign mark and a QUIET_WATCH (R20): YIELD naming the own leader is seen, any other clears it. -/
def EndUnit.watchYield (own : Option Tag) (m : MarkFields) (u : EndUnit) : EndUnit :=
  match u.phase, u.watch with
  | .reported, .quietWatch _ =>
    if m.procedure = .yielding && m.other.isSome && m.other == own then
      { u with watch := .quietWatch true, foreignCab := (m.cab, m.heading) }
    else { u with watch := .quietWatch false }
  | _, _ => u

/-- Whether a foreign mark makes an end in ADMIT_WATCH ready: ADMIT naming the own leader (R20). -/
def EndUnit.admitSeen (own : Option Tag) (m : MarkFields) (u : EndUnit) : Bool :=
  match u.phase, u.watch with
  | .reported, .admitWatch => m.procedure == .admitting && m.other.isSome && m.other == own
  | _, _ => false

/-- A hop-0 record read for the adjacent foreign car (R18). -/
def EndUnit.readAdjacent (hop : Nat) (source : AdjacentSource) (side : Side) (u : EndUnit) : EndUnit :=
  if hop = 0 then { u with adjacent := some { source := source, side := side } } else u

/-- A foreign roll record in COLLECTING: table kind CURRENT of the recorded epoch (R17). -/
def EndUnit.foreignRoll (r : RollFields) (u : EndUnit) : EndUnit :=
  if u.phase = .collecting && r.kind = .current && u.sighting.map Sighting.epoch == some r.epoch then
    let held := match u.foreign with
      | some f => f.entries
      | none => []
    { u with foreign := some { size := r.size, entries := r.entries.foldl (fun ens en => putEntry en ens) held } }
  else u

/-- The complete foreign table: entries 1 to m all held (R17). -/
def EndUnit.foreignTable (u : EndUnit) : Option (List Entry) :=
  match u.foreign with
  | some f => if allHeld f.size f.entries then some (f.entries.filter fun en => decide (en.position ≤ f.size)) else none
  | none => none

/-- The position the adjacent reading names in the foreign table; undetermined while the foreign leader's entry is not
held (R18). -/
def EndUnit.adjacentPosition (u : EndUnit) : Option (Nat × Side) :=
  match u.adjacent with
  | some a =>
    match a.source with
    | .position p => some (p, a.side)
    | .leader =>
      match u.foreign, u.sighting with
      | some f, some r => (entryOf f.entries r.leader).map fun en => (en.position, a.side)
      | _, _ => none
  | none => none

/-- The check of R18: the adjacent position is 1 with side REF or m with side FAR; with m = 1 position 1 passes. -/
def adjacentOk (m p : Nat) (side : Side) : Bool :=
  if m = 1 then p == 1
  else (p == 1 && side == .ref) || (p == m && side == .far)

/-- The report of a foreign formation that passes the check (R19, R86); `fixed` is the end's fixed-end flag. -/
def EndUnit.report (fixed : Bool) (u : EndUnit) : Option ForeignReport :=
  match u.foreignTable, u.adjacentPosition, u.sighting with
  | some ens, some (p, side), some r =>
    if adjacentOk ens.length p side then
      some { header := { leader := r.leader, epoch := r.epoch, size := ens.length, period := r.period,
                         adjPosition := p, adjSide := side, fixed := fixed }
             entries := ens }
    else none
  | _, _, _ => none

/-- The check of R18 fails: complete table, determined reading, wrong place. -/
def EndUnit.checkFails (u : EndUnit) : Bool :=
  match u.foreignTable, u.adjacentPosition with
  | some ens, some (p, side) => !adjacentOk ens.length p side
  | _, _ => false

/-- The instant at which the foreign marks have been missing for 2 × P (R16, R20). -/
def EndUnit.foreignDeadline (u : EndUnit) : Option Nat := u.sighting.map fun r => r.arrival + 2 * r.period

/-- Whether the silence timeout of R16 applies: in SIGHTING and COLLECTING, and in REPORTED before an answer (R19). -/
def EndUnit.timeoutApplies (u : EndUnit) : Bool :=
  match u.phase with
  | .sighting | .collecting => true
  | .reported => !u.answered
  | .quiet => false

end Sys2Proof.Machine
end

