-- ==== Sys2Proof/Machine/Answers.lean ====
section
/-! DEFINITION. The petition queue, answers taken by a car, and the leader's answer queue (R85, R89, R96). -/

namespace Sys2Proof.Machine

open Sys2Proof

/-! ## Wants in the queue (R85) -/

def Want.kind : Want → WantKind
  | .joinSeen _ _ _ => .joinSeen
  | .foreignQuiet _ _ _ => .foreignQuiet
  | .principalReady _ => .principalReady
  | .brk _ _ _ _ => .brk
  | .split _ _ _ => .split
  | .splitCancel _ _ _ => .splitCancel
  | .cabClaim => .cabClaim
  | .cabRelease => .cabRelease
  | .heading _ => .heading

def Want.wantEnd : Want → Option EndId
  | .joinSeen e _ _ | .foreignQuiet e _ _ | .principalReady e | .brk e _ _ _ => some e
  | .split _ _ _ | .splitCancel _ _ _ | .cabClaim | .cabRelease | .heading _ => none

/-- Whether a want has a kind and end: what identifies it (R85). -/
def Want.is (k : WantKind) (e : Option EndId) (w : Want) : Bool := w.kind == k && w.wantEnd == e

/-- A want with its fragment pointer at 0 (R87, R88). -/
def Want.rewind : Want → Want
  | .joinSeen e r _ => .joinSeen e r 0
  | w => w

/-- A want into the queue: it replaces the body of one of its kind and end in place, else it joins the tail (R85). -/
def putWant (w : Want) : List Want → List Want
  | [] => [w]
  | x :: rest => if x.is w.kind w.wantEnd then w :: rest else x :: putWant w rest

/-- The queued want of a kind and end. -/
def State.wantOf (s : State) (k : WantKind) (e : Option EndId) : Option Want := s.pet.queue.find? (Want.is k e)

/-- The queue without the want of a kind and end. -/
def State.dropWant (s : State) (k : WantKind) (e : Option EndId) : State :=
  { s with pet := { s.pet with queue := s.pet.queue.filter fun w => !w.is k e } }

/-- Every fragment pointer reset to 0 (R88). -/
def State.rewindWants (s : State) : State := { s with pet := { s.pet with queue := s.pet.queue.map Want.rewind } }

/-- The fragment pointer of an end's JOIN_SEEN back at 0 (R89, R93). -/
def State.rewindJoinSeen (s : State) (e : Option EndId) : State :=
  { s with pet := { s.pet with queue := s.pet.queue.map fun w => if w.is .joinSeen e then w.rewind else w } }

/-- The wants discarded on entry into APPLICANT, with their STALE notices in queue order (R88). -/
def State.discardWants (s : State) : State :=
  let one := fun (s : State) (w : Want) =>
    match w with
    | .split _ _ _ => s.notify rankStale (.splitOutcome .split (.answer .stale none))
    | .splitCancel _ _ _ => s.notify rankStale (.splitOutcome .splitCancel (.answer .stale none))
    | .cabClaim | .cabRelease | .heading _ => s.notify rankStale (.petitionAnswer w.kind .stale none)
    | .joinSeen _ _ _ | .foreignQuiet _ _ _ | .principalReady _ | .brk _ _ _ _ => s
  s.pet.queue.foldl one { s with pet := { s.pet with queue := [] } }

/-! ## Answers taken (R89) -/

/-- The JOIN_OUTCOME outcome of an answer to JOIN_SEEN (R118). -/
def AnswerOutcome.joinOutcome : AnswerOutcome → Option JoinOutcome
  | .joinPrincipal => some .principal
  | .joinAbsorbed => some .absorbed
  | .joinRefused => some .refused
  | .joinAbandoned => some .abandoned
  | .stale => some .stale
  | _ => none

/-- What an answer brings, by want kind and outcome (the table of R89). An outcome that the table does not list for the kind
brings nothing; every outcome of a SPLIT or a SPLIT_CANCEL is reported (DESIGN CHOICE, log 86). With no end JOIN_SEEN and
BREAK bring nothing; an end on a kind that has none is not looked at (DESIGN CHOICE, log 106). -/
def State.deliverAs (s : State) (want : Option Want) (k : WantKind) (e : Option EndId) (out : AnswerOutcome)
    (reason : Option Reason) : State :=
  match k, e with
  | .joinSeen, some e =>
    match out.joinOutcome with
    | some o =>
      (s.mapEnd e (EndUnit.joinAnswer out reason)).notify rankOutcome
        (.joinOutcome o reason (some e) ((s.endUnit e).otherLeader out))
    | none => s
  | .brk, some _ =>
    let held := match want with
      | some (.brk _ c cap fx) => some (c, cap, fx)
      | _ => none
    match out with
    | .done => s.notify rankOutcome (.breakOutcome .done held)
    | .stale => s.notify rankOutcome (.breakOutcome .stale held)
    | _ => s
  | .split, _ => s.notify rankOutcome (.splitOutcome .split (.answer out reason))
  | .splitCancel, _ => s.notify rankOutcome (.splitOutcome .splitCancel (.answer out reason))
  | .cabClaim, _ =>
    match out with
    | .granted => s.notify rankCab (.cab .granted)
    | .taken | .noCab => s.notify rankOther (.petitionAnswer .cabClaim out reason)
    | _ => s
  | .cabRelease, _ =>
    match out with
    | .done =>
      ({ s with pet := { s.pet with releasedSince := true } } : State).notify rankCab (.cab .released)
    | .notHolder => s.notify rankOther (.petitionAnswer .cabRelease out reason)
    | _ => s
  | .heading, _ =>
    match out with
    | .done | .notHolder => s.notify rankOther (.petitionAnswer .heading out reason)
    | _ => s
  | _, _ => s

/-- An answer is taken (R89): its want leaves the queue, and it is delivered whether or not a want was there. The want is
the one of the answer's kind and end field, so an end field that does not go with the kind names none (DESIGN CHOICE, log 106).
INCOMPLETE leaves the want and returns the pointer of the end's JOIN_SEEN to 0, whatever kind it names (DESIGN CHOICE,
log 80). -/
def State.deliver (s : State) (k : WantKind) (e : Option EndId) (out : AnswerOutcome) (reason : Option Reason) :
    State :=
  if out = .incomplete then s.rewindJoinSeen e
  else (s.dropWant k e).deliverAs (s.wantOf k e) k e out reason

/-! ## The answer queue (R96) -/

/-- An answer joins the tail. -/
def State.pushAnswer (s : State) (a : Answer) : State :=
  { s with pet := { s.pet with answers := s.pet.answers ++ [a] } }

/-- An answer addressed to the leader's own car as a member is delivered at once, never queued (R91, R96). (DEDUCED, log 30) -/
def Answer.isOwn (a : Answer) (own : Tag) : Bool := a.target == own && !a.applicant

/-- An answer from the leader's own work: always queued, the oldest making room (R96). -/
def State.answer (s : State) (a : Answer) : State :=
  if a.isOwn s.ownTag then s.deliver a.kind a.wantEnd a.outcome a.reason
  else
    let kept := if Config.answerSize ≤ s.pet.answers.length then s.pet.answers.tail else s.pet.answers
    ({ s with pet := { s.pet with answers := kept } } : State).pushAnswer a

/-- How many of some answers need a place in the queue. -/
def State.placesFor (s : State) (as : List Answer) : Nat := (as.filter fun a => !a.isOwn s.ownTag).length

/-- Whether the answers of a petition decided at taking can all be queued (R90, R96). -/
def State.hasRoom (s : State) (as : List Answer) : Bool :=
  decide (s.pet.answers.length + s.placesFor as ≤ Config.answerSize)

/-- Whether an answer to a petition already waits: same target tag, kind and end (R96). -/
def State.answerWaits (s : State) (target : Tag) (applicant : Bool) (k : WantKind) (e : Option EndId) : Bool :=
  s.pet.answers.any fun a => a.target == target && a.applicant == applicant && a.kind == k && a.wantEnd == e

/-- An answer to a member's want. -/
def answerTo (target : Tag) (k : WantKind) (e : Option EndId) (out : AnswerOutcome) (reason : Option Reason) :
    Answer :=
  { target := target, applicant := false, kind := k, wantEnd := e, outcome := out, reason := reason }

/-- An answer to an applicant. -/
def answerApplicant (target : Tag) (out : AnswerOutcome) (reason : Option Reason) : Answer :=
  { target := target, applicant := true, kind := .enroll, wantEnd := none, outcome := out, reason := reason }

end Sys2Proof.Machine
end

