-- ==== Sys2Proof/Machine/Channels.lean ====
section
/-! DEFINITION. The channel unit's operations on staging, live copies, image and watch list (R149 to R163). -/

namespace Sys2Proof.Machine

open Sys2Proof

/-! ## The image -/

/-- The cell of a source tag and channel index. -/
def cellOfTag (img : List ImageCell) (t : Tag) (ch : Nat) : Option ImageCell :=
  img.find? fun c => c.tag == t && c.channel == ch

/-- The present cell at a position and channel index (R160). -/
def cellAt (img : List ImageCell) (p ch : Nat) : Option ImageCell :=
  img.find? fun c => c.position == some p && c.channel == ch

/-- The cells the part holds; no cell where it holds no image. -/
def State.cells (s : State) : List ImageCell := s.chan.image.getD []

/-- A cell reported whole with a train time (R160). -/
def ImageCell.report (c : ImageCell) (time : Capture) : CellReport :=
  { tag := c.tag, channel := c.channel, position := c.position.getD 0, state := c.state,
    payload := c.payload, publisherAge := c.publisherAge, receiveAge := c.receiveAge, time := time }

/-- Whether a cell has changed: its state or its payload differs (R154). -/
def cellChanged (b a : ImageCell) : Bool := b.state != a.state || b.payload != a.payload

/-- A CHANGE notice for every watched cell that changed, in watch list order (R161, R162, R184). A new cell has not changed,
also where its channel is SUSPENDED (R157, DESIGN CHOICE, log 75). -/
def State.noticeChanges (s : State) (before : List ImageCell) : State :=
  s.chan.watch.foldl (fun s' w =>
    match cellOfTag before w.1 w.2, cellOfTag s.cells w.1 w.2 with
    | some b, some a => if cellChanged b a then s'.notify rankChange (.change (a.report s.capture)) else s'
    | _, _ => s') s

/-- The image replaced, changes of watched cells noticed. -/
def State.setImage (s : State) (img : List ImageCell) : State :=
  ({ s with chan := { s.chan with image := some img } } : State).noticeChanges s.cells

/-- Every receive age rises by one, saturating at 255 (R156). -/
def State.ageImage (s : State) : State :=
  { s with chan := { s.chan with
      image := s.chan.image.map fun img => img.map fun c => { c with receiveAge := min 255 (c.receiveAge + 1) } } }

/-- The halves of a payload exchanged (R150, R154). -/
def swapHalves (p : List Octet) : List Octet := p.drop 16 ++ p.take 16

/-- A payload between car-local and train sense: exchanged for a sided channel of a REVERSED car (R150, R154). -/
def sensed (o : Option Orientation) (sided : Bool) (p : List Octet) : List Octet :=
  if o = some .reversed && sided then swapHalves p else p

/-- The cell of a source and channel takes a value (R154, R155). -/
def ImageCell.take (c : ImageCell) (payload : List Octet) (age : Nat) (stale : Bool) : ImageCell :=
  { c with payload := some payload, publisherAge := age, receiveAge := 0,
           state := if stale then .stale else .fresh }

/-- The present cell at (position, channel) takes a value. -/
def takeAt (img : List ImageCell) (p ch : Nat) (payload : List Octet) (age : Nat) (stale : Bool) :
    List ImageCell :=
  img.map fun c => if c.position = some p && c.channel = ch then c.take payload age stale else c

/-! ## Carrying cells over (R157, R158) -/

/-- The suspension step for one cell of a channel (R157). -/
def ImageCell.suspend (c : ImageCell) (granted : Rate) : ImageCell :=
  if granted = .suspended then { c with state := .suspended }
  else if c.state = .suspended then { c with state := if c.payload.isSome then .stale else .empty }
  else c

/-- The cell of one channel of the new table, from the image before (R157). -/
def rekeyCell (img : List ImageCell) (en : Entry) (ch : Nat) : ImageCell :=
  match cellOfTag img en.tag ch with
  | some c =>
    if c.position.isSome then { c with position := some en.position }
    else { c with position := some en.position, state := if c.payload.isSome then .stale else .empty }
  | none =>
    { tag := en.tag, channel := ch, position := some en.position, state := .empty, payload := none,
      publisherAge := 0, receiveAge := 0 }

/-- The image re-keyed to a new table: present cells in channel order, then the cells of the cars that left (R157). -/
def rekeyImage (img : List ImageCell) (ens : List Entry) : List ImageCell :=
  let present := (ens.map fun en => en.channels.zipIdx.map fun p =>
    (rekeyCell img en p.2).suspend p.1.granted).flatten
  let gone := (img.filter fun c => c.position.isSome && !holdsTag ens c.tag).map fun c =>
    { c with position := none, state := .gone }
  present ++ gone

/-- Re-keying at an installation; before its first installation the part holds no image (R157, R160). -/
def State.rekey (s : State) (ens : List Entry) : State := s.setImage (rekeyImage s.cells ens)

/-- The suspension step applied to every present cell, by the current table as it stands (R158). No cell is added or removed
where an entry replaced from the roll has another channel count (R141, DESIGN CHOICE, log 82). -/
def State.applySuspension (s : State) : State :=
  match s.chan.image with
  | none => s
  | some img =>
    s.setImage (img.map fun c =>
      match c.position.bind (entryAt s.entries) with
      | some en => match en.channels[c.channel]? with
        | some d => c.suspend d.granted
        | none => c
      | none => c)

/-! ## Taking (R150 to R152, R155) -/

/-- The outbound side of a channel. -/
def State.outOf (s : State) (ch : Nat) : OutChannel := s.chan.out.getD ch OutChannel.initial

/-- The outbound age after a take (R150). -/
def OutChannel.ageAfter (o : OutChannel) : Nat := if o.written then 0 else min 15 (o.age + 1)

/-- One own channel is taken: age, live copy, own cell (R150, R155). The sided flag is that of the own entry of the current
table (DESIGN CHOICE, log 81). -/
def State.takeChannel (s : State) (ch : Nat) : State :=
  let o := s.outOf ch
  let age := o.ageAfter
  let stale := decide (s.settings.staleLimit ≤ age)
  let sided := match s.ownEntry with
    | some en => match en.channels[ch]? with
      | some d => d.sided
      | none => false
    | none => false
  { s with chan := { s.chan with
      out := s.chan.out.set ch { o with written := false, age := age }
      live := s.chan.live ++ [{ channel := ch, payload := sensed s.ownOrientation sided o.staging,
                                age := age, stale := stale }]
      image := s.chan.image.map fun img => takeAt img s.ownPosition ch o.staging age stale } }

/-- Whether the part sends channel records in the cycle in progress: in LEAD after its first generated mark, in MEMBER
while SYNCED in a MARKED cycle (R28, R150). -/
def State.sends (s : State) : Bool :=
  s.leading || (s.synced && s.timer.kind == .marked)

/-- Every own channel with a cell at the cycle's index in the plan in force is taken (R150), if the channel count of the
settings in use takes it in (R149). -/
def State.takeChannels (s : State) : State :=
  match s.planner.inForce with
  | none => s
  | some p =>
    if s.sends then
      let own := (p.channelsAt s.ownPosition s.timer.index).filter fun ch => decide (ch < s.settings.channels.length)
      (own.foldl State.takeChannel s).noticeChanges s.cells
    else s

/-- The live copies of the cycle that ends are discarded (R151). -/
def State.dropLive (s : State) : State := { s with chan := { s.chan with live := [] } }

/-! ## Acceptance (R153, R154) -/

/-- Whether the plan in force gives the arrival cell to the record's pair, and the table holds that pair (R79). -/
def State.cellCheck (s : State) (source ch : Nat) : Bool :=
  match s.planner.inForce, s.arrivalCell with
  | some p, some (slot, idx) => p.gives slot idx source ch
  | _, _ => false

/-- A channel record judged: form, node state, epoch, cell check, source; the first step that fails decides (R153). -/
def State.takeChannelRecord (s : State) (e : EndId) (c : ChannelFields) : State :=
  if 7 < c.channel then s.lineError e
  else if s.form.node ≠ .lead && s.form.node ≠ .member then s
  else if s.form.current.map Table.epoch ≠ some c.epoch then s
  else if !s.cellCheck c.source c.channel then s
  else if c.source = s.ownPosition then s
  else
    let sided := match entryAt s.entries c.source with
      | some en => match en.channels[c.channel]? with
        | some d => d.sided
        | none => false
      | none => false
    s.setImage (takeAt s.cells c.source c.channel (sensed s.ownOrientation sided c.payload) c.age c.stale)

/-- The channel record made from the live copy taken for a channel in this cycle (R151). -/
def State.sendChannel (s : State) (ch : Nat) : State :=
  match s.chan.live.find? (fun l => l.channel == ch), s.form.current with
  | some l, some t =>
    s.sendOwn (channelRecord { source := s.ownPosition, channel := ch, epoch := t.epoch, age := l.age,
                               stale := l.stale, payload := l.payload })
  | _, _ => s

end Sys2Proof.Machine
end

