-- ==== Sys2Proof/Machine/Formation.lean ====
section
/-! DEFINITION. Tables coming into force: installation, shadow plans, becoming an applicant, the cab mark
(R50, R55, R59 to R61, R80 to R82, R92, R99, R100, R119, R131, R141). -/

namespace Sys2Proof.Machine

open Sys2Proof

/-! ## Plans (R70, R80 to R82) -/

/-- The period a plan is made under: in LEAD the snapshot's, else the latched one, which is the period in force (R70). -/
def State.planPeriod (s : State) : Nat := if s.form.node = .lead then s.settings.period else s.period

/-- The shadow plan of a table: the one held is kept while the table stands as it was, a new or changed table has its plan
made under the period `p`, and a table that is gone takes its plan along (R80). -/
def shadowPlan (p : Nat) (before now : Option Table) (held : Option Plan) : Option Plan :=
  if now = before && held.isSome then held else now.map fun t => makePlan t p

/-- The shadow plans of the tables now held, `before` being the formation unit as the tables stood before (R80, DEDUCED,
log 60). -/
def State.withShadows (before : FormationUnit) (s : State) : State :=
  let p := s.planner
  { s with planner := { p with
      shadowPending := shadowPlan s.planPeriod before.pendingT s.form.pendingT p.shadowPending
      shadowA := if s.holdsArmed then shadowPlan s.planPeriod before.armedA s.form.armedA p.shadowA else none
      shadowB := if s.holdsArmed then shadowPlan s.planPeriod before.armedB s.form.armedB p.shadowB else none } }

/-- At a cycle start without an installation the plan is made again where the period differs from its own (R82) or an
entry was replaced from the roll (R141); the suspension step follows (R158). -/
def State.replan (s : State) : State :=
  match s.planner.inForce, s.form.current with
  | some p, some t =>
    if p.period ≠ s.planPeriod || s.planner.stale then
      ({ s with planner := { s.planner with inForce := some (makePlan t s.planPeriod), stale := false } } :
        State).applySuspension
    else s
  | _, _ => s

/-! ## The petition unit at an installation (R92, R93, R99) -/

/-- Silence counts re-keyed to a table: kept tags keep their counts, new tags start at 0 with the mark clear; the
leader has none (R92). -/
def rekeySilence (own : Tag) (old : List Silence) (ens : List Entry) : List Silence :=
  (ens.filter fun en => en.tag != own).map fun en =>
    (old.find? fun c => c.tag == en.tag).getD { tag := en.tag, count := 0, heard := false, owed := false }

/-- Whether a car's end is outer in a list of entries (R52). -/
def outerIn (ens : List Entry) (t : Tag) (e : EndId) : Bool :=
  match entryOf ens t with
  | some en => outerAt en.position ens.length (en.orientation.sideOf e)
  | none => false

/-- Whether a car's end is inner in a list of entries: the car is there and the end is not outer. -/
def innerIn (ens : List Entry) (t : Tag) (e : EndId) : Bool := holdsTag ens t && !outerIn ens t e

/-- The leader's records follow a new table: silence counts, join assemblies, cab (R92, R93, R99). -/
def PetitionUnit.follow (own : Tag) (ens : List Entry) (p : PetitionUnit) : PetitionUnit :=
  let keeps := match p.holder with
    | some t => holdsTag ens t
    | none => false
  { p with
    silence := rekeySilence own p.silence ens
    joins := p.joins.filter fun j => outerIn ens j.reporter j.reporterEnd
    holder := if keeps then p.holder else none
    cabHeading := if keeps then p.cabHeading else .none }

/-! ## Installation (R61) -/

/-- What a car holds of a later table survives an installation only at the epoch above the installed one (R61, DEDUCED, log 13). -/
def keepAbove (epoch : Epoch) (a : Option Assembly) : Option Assembly := a.filter fun a => a.epoch == epoch + 1

def keepTableAbove (epoch : Epoch) (t : Option Table) : Option Table := t.filter fun t => t.epoch == epoch + 1

/-- The FORMATION notice of a table (R61). -/
def State.formationNotice (s : State) (t : Table) (leader : Tag) : State :=
  let en := entryOf t.entries s.ownTag
  s.notify rankFormation (.formation t.epoch t.size (positionOf t.entries s.ownTag) (en.map Entry.orientation) leader)

/-- The formation unit's tables at an installation (R52, R61). -/
def FormationUnit.take (own : Tag) (t : Table) (f : FormationUnit) : FormationUnit :=
  { f with
    current := some t
    pendingT := keepTableAbove t.epoch f.pendingT
    armedA := keepTableAbove t.epoch f.armedA
    armedB := keepTableAbove t.epoch f.armedB
    designatedB := if (keepTableAbove t.epoch f.armedA).isSome && (keepTableAbove t.epoch f.armedB).isSome
      then f.designatedB else none
    asmCurrent := keepAbove t.epoch f.asmCurrent
    asmPending := keepAbove t.epoch f.asmPending
    asmA := keepAbove t.epoch f.asmA
    asmB := keepAbove t.epoch f.asmB
    steering := steeringOf t own
    fastPath := none }

/-- A table that holds the own tag is installed (R61): tables, steering, plan, image, petition unit, FORMATION notice. -/
def State.installOwn (s : State) (t : Table) : State :=
  let s1 : State := { s with form := s.form.take s.ownTag t }
  let s2 : State := { s1 with
    planner := { s1.planner with inForce := some (makePlan t s1.planPeriod), stale := false }
    pet := if s1.form.node = .lead then s1.pet.follow s1.ownTag t.entries else s1.pet }
  ((s2.withShadows s.form).rekey t.entries).formationNotice t (s2.leaderTag.getD 0)

/-! ## Leaving LEAD and becoming an applicant (R50, R84, R88, R100, R101, R119) -/

/-- What the petition unit clears when the part leaves LEAD (R101, R128, R148). -/
def PetitionUnit.leaveLead (p : PetitionUnit) : PetitionUnit :=
  { p with silence := [], silenceDue := [], joins := [], work := [], inProgress := none, deferred := false,
           join := none, split := none, answers := [], holder := none, cabHeading := .none }

/-- What the formation unit clears when the part leaves LEAD. -/
def FormationUnit.leaveLead (f : FormationUnit) : FormationUnit :=
  { f with procedure := none, countdown := 0, countdownFresh := false, otherTag := none, rollPointer := none,
           led := none }

/-- The applicant record on entry (R119). -/
def ApplicantRecord.initial (complete : Bool) : ApplicantRecord :=
  { status := if complete then .waiting else .gathering, survey1 := SurveyEnd.clear, survey2 := SurveyEnd.clear,
    place := none, orientation := none, attempt := 0, roundStarts := none, regathering := false, enrollSlot := none,
    sentRound := none }

/-- The own-cab mark lost on entry into APPLICANT (R100). -/
def State.loseCab (s : State) : State :=
  let s1 : State := { s with pet := { s.pet with ownCab := false } }
  if s.pet.ownCab then s1.notify rankCab (.cab .lost) else s1

/-- A part of a formation becomes APPLICANT with a table that does not hold it (R50, R115). The image is kept as it
stood (R159, DEDUCED, log 28); the notice of a part that was leading names its own tag (R61, DESIGN CHOICE, log 69). The
pending and armed assemblies go with their tables, whatever their epoch (DESIGN CHOICE, log 110). -/
def State.becomeApplicant (s : State) (t : Table) : State :=
  let leader := s.leaderTag.getD 0
  let wasLead := decide (s.form.node = .lead)
  let s1 : State := { s with
    form := { s.form.leaveLead with
      node := .applicant, current := none, pendingT := none, armedA := none, armedB := none,
      asmCurrent := some t.assembly, asmPending := none, asmA := none, asmB := none, designatedB := none,
      steering := none, fastPath := none, yieldRecord := none, seek := none,
      applicant := some (ApplicantRecord.initial true) }
    planner := Planner.initial
    pet := s.pet.leaveLead
    timer := if wasLead then { s.timer with lock := .acquiring, followed := none } else s.timer }
  (s1.discardWants.dropLive.loseCab).notify rankFormation (.formation t.epoch t.size 0 none leader)

/-- A table is installed, or the part becomes APPLICANT if the table does not hold its tag (R50, R61). -/
def State.install (s : State) (t : Table) : State :=
  if holdsTag t.entries s.ownTag then s.installOwn t else s.becomeApplicant t

/-! ## The armed joint as a follower derives it (R131, R136) -/

/-- The first pair of neighbouring cars of a table that lie one in `a` and the other in `b`. -/
def jointBetween (a b : List Entry) : List Entry → Option (Tag × Tag)
  | x :: y :: rest =>
    if (holdsTag a x.tag && holdsTag b y.tag) || (holdsTag b x.tag && holdsTag a y.tag) then some (x.tag, y.tag)
    else jointBetween a b (y :: rest)
  | _ => none

/-- The designated B leader tag of an armed-complete follower: of the two cars at the joint the one in the table that
does not hold the followed leader (R131). -/
def designatedOf (leader : Option Tag) (ta tb : Table) (ens : List Entry) : Option Tag :=
  let b := match leader with
    | some t => if holdsTag tb.entries t then ta else tb
    | none => tb
  (jointBetween ta.entries tb.entries ens).map fun j => if holdsTag b.entries j.1 then j.1 else j.2

/-- The notice PARTED of a car that installs armed table A or B (R136). -/
def State.parted (s : State) (sideA : Bool) (t : Table) (joint : Option (Tag × Tag)) : State :=
  s.notify rankOutcome (.splitOutcome .split
    (.parted { sideA := sideA, epoch := t.epoch, size := t.size, joint := joint }))

/-- The table of the followed formation in which a joint is read: the current table, in APPLICANT and SEEK the CURRENT
assembly once it is complete (DEDUCED, log 37). -/
def State.jointEntries (s : State) : List Entry :=
  if s.form.node = .applicant || s.form.node = .seek then ((completeTable s.form.asmCurrent).map Table.entries).getD []
  else s.entries

/-- The joint between the armed tables. -/
def State.armedJoint (s : State) : Option (Tag × Tag) :=
  match s.form.armedA, s.form.armedB with
  | some a, some b => jointBetween a.entries b.entries s.jointEntries
  | _, _ => none

/-- The notice PARTED of a car that has installed a table found, where that is an armed one (R136). -/
def State.partedAs (s : State) (found : Table × Option Bool) (joint : Option (Tag × Tag)) : State :=
  match found.2 with
  | some sideA => s.parted sideA found.1 joint
  | none => s

/-! ## Assemblies completing (R55, R63, R80, R131) -/

/-- The two armed assemblies where both are complete under the working epoch + 1 (R55, R63). -/
def State.armedPair (s : State) : Option (Table × Table) :=
  match completeTable s.form.asmA, completeTable s.form.asmB, s.workingEpoch with
  | some a, some b, some ep => if armedUnder ep a b then some (a, b) else none
  | _, _, _ => none

/-- Complete assemblies become their tables: the pending table, and both armed tables together (R55, R63). The designated B
leader tag is derived at every record that reaches here while both armed assemblies are complete, and stands in between, over
an installation of the CURRENT table too (R131, DESIGN CHOICE, log 114). -/
def State.completeTables (s : State) : State :=
  let pend := completeTable s.form.asmPending
  let pair := s.armedPair
  let s1 : State := { s with form := { s.form with
    pendingT := if pend.isSome then pend else s.form.pendingT
    armedA := if pair.isSome then pair.map Prod.fst else s.form.armedA
    armedB := if pair.isSome then pair.map Prod.snd else s.form.armedB
    designatedB := match pair with
      | some (a, b) => designatedOf (s.timer.followed.map Prod.fst) a b s.jointEntries
      | none => s.form.designatedB } }
  s1.withShadows s.form

/-- The armed tables and assemblies are discarded (R56). -/
def FormationUnit.dropArmed (f : FormationUnit) : FormationUnit :=
  { f with armedA := none, armedB := none, asmA := none, asmB := none, designatedB := none }

/-- The pending table and assembly are discarded (R56). -/
def FormationUnit.dropPending (f : FormationUnit) : FormationUnit := { f with pendingT := none, asmPending := none }

/-- A complete table of an epoch that holds a leader tag, among the pending and the armed tables; the second part says
which armed table it is (R59). -/
def State.tableOf (s : State) (epoch : Epoch) (leader : Tag) : Option (Table × Option Bool) :=
  let fits := fun (t : Table) => t.epoch == epoch && holdsTag t.entries leader
  match s.form.pendingT.filter fits with
  | some t => some (t, none)
  | none =>
    match s.form.armedA.filter fits with
    | some t => some (t, some true)
    | none => (s.form.armedB.filter fits).map fun t => (t, some false)

/-- No table of the new epoch was found: the pending assembly becomes the CURRENT assembly of the new working epoch,
and the rest is discarded (R56, R59). -/
def State.gatherAnew (s : State) (epoch : Epoch) : State :=
  let f := s.form
  ({ s with form := { f.dropArmed with
      asmCurrent := f.asmPending.filter fun a => a.epoch == epoch
      pendingT := none, asmPending := none } } : State).withShadows s.form

/-! ## The cab mark (R100) -/

/-- The own-cab mark compared with the latched mark (R100). -/
def State.compareCab (s : State) : State :=
  let yes := match s.timer.latched with
    | some m => m.cab != 0 && m.cab == s.ownPosition
    | none => false
  let released := s.pet.releasedSince || (s.wantOf .cabRelease none).isSome
  let s1 : State := { s with pet := { s.pet with ownCab := yes, releasedSince := false } }
  if s.pet.ownCab && !yes && !released then s1.notify rankCab (.cab .lost) else s1

/-! ## Cycle starts (R26, R150, R151, R156) -/

/-- The cycle index and round count after a start that is no accepted mark (R26). -/
def CycleTimer.nextCycle (t : CycleTimer) : CycleTimer :=
  { t with index := (t.index + 1) % 4, round := if (t.index + 1) % 4 = 0 then t.round + 1 else t.round }

/-- What the channel unit does at every cycle start: live copies of the cycle that ends are discarded, receive ages
rise (R151, R156). -/
def State.turnCycle (s : State) : State := s.dropLive.ageImage

end Sys2Proof.Machine
end

