-- ==== Sys2Proof/Machine/Leader.lean ====
section
/-! DEFINITION. The leader's petition unit: the work list, the cab arbiter, wants taken and offered, announcements,
and the entry into LEAD (R57, R83, R88 to R101, R104 to R110, R124, R129, R130, R135, R138, R142). -/

namespace Sys2Proof.Machine

open Sys2Proof

/-! ## The work list (R94) -/

/-- BREAK and DROPOUT items go before the others. -/
def WorkItem.urgent : WorkItem → Bool
  | .brk _ _ _ _ _ | .dropout _ => true
  | .join _ _ _ | .split _ _ _ _ | .enroll _ _ _ => false

/-- Whether two items have the same kind and key (R94). -/
def WorkItem.sameKey : WorkItem → WorkItem → Bool
  | .join t e _, .join t' e' _ => t == t' && e == e'
  | .brk t e _ _ _, .brk t' e' _ _ _ => t == t' && e == e'
  | .split _ l h _, .split _ l' h' _ => l == l' && h == h'
  | .enroll t _ _, .enroll t' _ _ => t == t'
  | .dropout t, .dropout t' => t == t'
  | _, _ => false

/-- The waiting item `old` with the body of `new`; a SPLIT keeps the first requester (R94, R130). -/
def WorkItem.merged (new old : WorkItem) : WorkItem :=
  match new, old with
  | .split _ l h p, .split r _ _ _ => .split r l h p
  | _, _ => new

/-- An urgent item directly behind the last waiting urgent item, or at the head (R94). -/
def insertUrgent (it : WorkItem) : List WorkItem → List WorkItem
  | [] => [it]
  | x :: rest => if (x :: rest).any WorkItem.urgent then x :: insertUrgent it rest else it :: x :: rest

/-- An item into the list: merged with one of its kind and key, else placed; none if 8 items wait (R94). -/
def placeItem (it : WorkItem) (work : List WorkItem) : Option (List WorkItem) :=
  if work.any it.sameKey then some (work.map fun x => if it.sameKey x then it.merged x else x)
  else if Config.workSize ≤ work.length then none
  else some (if it.urgent then insertUrgent it work else work ++ [it])

/-- An item made from a taken want; none if it cannot be placed. -/
def State.place (s : State) (it : WorkItem) : Option State :=
  (placeItem it s.pet.work).map fun w => { s with pet := { s.pet with work := w } }

/-! ## The cab arbiter (R97, R98) -/

/-- CAB_CLAIM decided (R97). -/
def State.decideClaim (s : State) (sender : Tag) : State × AnswerOutcome :=
  if !((entryOf s.entries sender).any Entry.cab) then (s, .noCab)
  else match s.pet.holder with
    | none => ({ s with pet := { s.pet with holder := some sender, cabHeading := .none } }, .granted)
    | some t => if t = sender then (s, .granted) else (s, .taken)

/-- CAB_RELEASE decided (R97). -/
def State.decideRelease (s : State) (sender : Tag) : State × AnswerOutcome :=
  if s.pet.holder = some sender then
    ({ s with pet := { s.pet with holder := none, cabHeading := .none } }, .done)
  else (s, .notHolder)

/-- HEADING decided (R97). -/
def State.decideHeading (s : State) (sender : Tag) (d : Direction) : State × AnswerOutcome :=
  if s.pet.holder = some sender then ({ s with pet := { s.pet with cabHeading := d } }, .done)
  else (s, .notHolder)

/-- The holder and heading a mark names, in a table: the tag at its active cab position, and its train heading in that
car's own sense (R99). -/
def holderOf (m : MarkFields) (ens : List Entry) : Option (Tag × Direction) :=
  if m.cab = 0 then none
  else (entryAt ens m.cab).map fun en => (en.tag, m.heading.toLocal en.orientation)

/-- The arbiter set (R99). -/
def PetitionUnit.setCab (p : PetitionUnit) (h : Option (Tag × Direction)) : PetitionUnit :=
  { p with holder := h.map Prod.fst, cabHeading := match h with
      | some (_, d) => d
      | none => .none }

/-! ## Announcing (R57) and disarming (R133 to R137) -/

/-- The epoch of the table to come: the current epoch + 1 (R51); between a resume and the first mark, the epoch of the
resumed table + 1 (R116, DEDUCED, log 76). -/
def State.nextEpoch (s : State) : Epoch :=
  match s.form.led with
  | some led => led.table.epoch + 1
  | none => ((s.form.current.map Table.epoch).getD 0) + 1

/-- The leader enters ANNOUNCE with a pending table; its countdown is left for the next cycle start (R57). -/
def State.announce (s : State) (ens : List Entry) : State :=
  ({ s with form := { s.form with
      pendingT := some { epoch := s.nextEpoch, entries := ens }
      procedure := some .announce, otherTag := none, countdownFresh := true } } : State).withShadows s.form

/-- The leader's procedure back at STEADY. -/
def State.steady (s : State) : State :=
  { s with form := { s.form with procedure := some .steady, countdown := 0, countdownFresh := false,
                                 otherTag := none } }

/-- STEADY at once, which the next mark carries before any re-forming begins (R62, R112, R133 to R135, R137). -/
def State.steadyNext (s : State) : State := { s.steady with pet := { s.steady.pet with deferred := true } }

/-- The split record cleared, the item in progress ended. -/
def State.endSplit (s : State) : State := { s with pet := { s.pet with split := none, inProgress := none } }

/-- The join in progress and its item ended. -/
def State.endJoin (s : State) : State := { s with pet := { s.pet with join := none, inProgress := none } }

/-- A split in ARMING or ARMED disarmed: STEADY, record cleared, item ended, DISARMED for the requester (R133 to R135). -/
def State.disarm (s : State) (sp : SplitRecord) (reason : Reason) : State :=
  s.steadyNext.endSplit.answer (answerTo sp.requester .split none .disarmed (some reason))

/-! ## Joints (R129) -/

/-- The joint of two tags: the lower position, if they stand side by side in that order. -/
def jointPosition (low high : Tag) : List Entry → Option Nat
  | x :: y :: rest => if x.tag = low && y.tag = high then some x.position else jointPosition low high (y :: rest)
  | _ => none

/-- The joint of two tags found again: adjacent in the current table, in either order, at the lower position (R129). -/
def rejoin (low high : Tag) (ens : List Entry) : Option (Nat × Tag × Tag) :=
  match jointPosition low high ens with
  | some p => some (p, low, high)
  | none => (jointPosition high low ens).map fun p => (p, high, low)

/-- The tags either side of joint p. -/
def jointTags (ens : List Entry) (p : Nat) : Option (Tag × Tag) :=
  match entryAt ens p, entryAt ens (p + 1) with
  | some a, some b => some (a.tag, b.tag)
  | _, _ => none

/-- Whether a split record is of a joint. -/
def SplitRecord.isFor (sp : SplitRecord) (j : Tag × Tag) : Bool :=
  (sp.low == j.1 && sp.high == j.2) || (sp.low == j.2 && sp.high == j.1)

/-! ## Wants decided at taking -/

/-- A want answered at taking: taken only if its answers can all be queued (R90). -/
def State.answered (s : State) (as : List Answer) (f : State → State) : Option State :=
  if s.hasRoom as then some (as.foldl State.answer (f s)) else none

/-- A SPLIT at joint p taken (R130). -/
def State.takeSplit (s : State) (sender : Tag) (p : Nat) : Option State :=
  match jointTags s.entries p, entryAt s.entries p with
  | some j, some en =>
    let say := fun o => s.answered [answerTo sender .split none o none] id
    if en.farKind = .fixed then say .fixed
    else match s.pet.split with
      | some sp =>
        if sp.isFor j then (if sp.stage = .armed then say .armed else some s)
        else say .alreadyArmed
      | none => s.place (.split sender j.1 j.2 p)
  | _, _ => none

/-- A SPLIT_CANCEL at joint p taken (R135). -/
def State.takeSplitCancel (s : State) (sender : Tag) (p : Nat) : Option State :=
  match jointTags s.entries p with
  | none => none
  | some j =>
    let say := fun o => answerTo sender .splitCancel none o none
    let waiting := s.pet.work.find? fun it => match it with
      | .split _ l h _ => (l == j.1 && h == j.2) || (l == j.2 && h == j.1)
      | _ => false
    let waits := match waiting with
      | some (.split r _ _ _) =>
        s.answered [say .cancelled, answerTo r .split none .cancelled none] fun s =>
          { s with pet := { s.pet with work := s.pet.work.filter fun it => some it != waiting } }
      | _ => s.answered [say .notArmed] id
    match s.pet.split with
    | some sp =>
      if sp.isFor j then
        if sp.stage = .executing then s.answered [say .tooLate] id
        else s.answered [say .cancelled, answerTo sp.requester .split none .disarmed (some .cancelled)] fun s =>
          s.steadyNext.endSplit
      else waits
    | none => waits

/-- A BREAK taken: an item, unless the item in progress is a BREAK of the same reporter and end (R94, R142). -/
def State.takeBreak (s : State) (sender : Tag) (e : EndId) (c : Cause) (cap : Capture) (fx : Bool) : Option State :=
  let it := WorkItem.brk sender e c cap fx
  match s.pet.inProgress with
  | some cur => if it.sameKey cur then some s else s.place it
  | none => s.place it

/-! ## Joins: reports and signals (R93, R105, R109) -/

def JoinAssembly.complete (j : JoinAssembly) : Bool := allHeld j.header.size j.entries

/-- The report a complete assembly makes. -/
def JoinAssembly.report (j : JoinAssembly) : ForeignReport :=
  { header := j.header, entries := j.entries.filter fun en => decide (en.position ≤ j.header.size) }

/-- The assemblies with one replaced or added. -/
def putJoin (j : JoinAssembly) (js : List JoinAssembly) : List JoinAssembly :=
  if js.any fun x => x.reporter == j.reporter && x.reporterEnd == j.reporterEnd then
    js.map fun x => if x.reporter = j.reporter && x.reporterEnd = j.reporterEnd then j else x
  else js ++ [j]

/-- A complete assembly makes or renews its JOIN item, where the list has room (R93, R94). -/
def State.placeJoin (s : State) (j : JoinAssembly) : State :=
  if j.complete then (s.place (.join j.reporter j.reporterEnd j.report)).getD s else s

/-- A JOIN_SEEN fragment taken (R93). (DEDUCED, log 23) -/
def State.takeFragment (s : State) (sender : Tag) (e : EndId) (h : JoinHeader) (ens : List Entry) : Option State :=
  let held := s.pet.joins.find? fun j => j.reporter == sender && j.reporterEnd == e
  let same := held.filter fun j => j.header.leader == h.leader && j.header.epoch == h.epoch
  let keep := fun (s : State) (j : JoinAssembly) => { s with pet := { s.pet with joins := putJoin j s.pet.joins } }
  let again := [answerTo sender .joinSeen (some e) .incomplete none]
  match same with
  | some j =>
    if ens.isEmpty then (if j.complete then some (s.placeJoin j) else s.answered again id)
    else
      let j' := { j with header := h, entries := ens.foldl (fun l en => putEntry en l) j.entries }
      some ((keep s j').placeJoin j')
  | none =>
    let j' : JoinAssembly :=
      { reporter := sender, reporterEnd := e, header := h, entries := ens.foldl (fun l en => putEntry en l) [] }
    if ens.isEmpty then s.answered again fun s => keep s j' else some ((keep s j').placeJoin j')

/-- The merged table of the join in progress, with its granted rates (R64, R106). An adjacent foreign position other than 1
is read as m (DESIGN CHOICE, log 107). -/
def State.mergedEntries (s : State) (j : JoinProgress) : List Entry :=
  let h := j.report.header
  let far := match entryOf s.entries j.reporter with
    | some en => en.orientation.sideOf j.reporterEnd == .far
    | none => true
  let first := if h.size = 1 then h.adjSide == .ref else h.adjPosition == 1
  grantRates s.settings.period (mergeTables s.entries far j.report.entries first h.fixed)

/-- The foreign holder and heading a FOREIGN_QUIET names: its position in the foreign table, its heading in that car's
own sense (R99, R105). A position that is not in that table, and 0 with any heading, names none (DESIGN CHOICE, log 79). -/
def foreignHolderOf (ens : List Entry) (cab : Nat) (hd : Heading) : Option (Tag × Direction) :=
  if cab = 0 then none else (entryAt ens cab).map fun en => (en.tag, hd.toLocal en.orientation)

/-- Whether a signal of a joint car matches the join in progress (R105, R109). -/
def JoinProgress.signalFrom (j : JoinProgress) (role : JoinRole) (ph : JoinPhase) (sender : Tag) (e : EndId) : Bool :=
  j.role == role && j.phase == ph && j.reporter == sender && j.reporterEnd == e

/-- A FOREIGN_QUIET taken (R105): a matching one makes the merged table the pending table. -/
def State.takeForeignQuiet (s : State) (sender : Tag) (e : EndId) (cab : Nat) (hd : Heading) : Option State :=
  let say := fun o => [answerTo sender .foreignQuiet (some e) o none]
  match s.pet.join with
  | some j =>
    if j.signalFrom .principal .admitting sender e then
      s.answered (say .done) fun s =>
        ({ s with pet := { s.pet with join := some { j with
            phase := .announce, foreignHolder := foreignHolderOf j.report.entries cab hd } } } : State).announce
          (s.mergedEntries j)
    else s.answered (say .stale) id
  | none => s.answered (say .stale) id

/-- A PRINCIPAL_READY taken (R109, R110): a matching one begins the YIELD, whose countdown starts at 4. -/
def State.takePrincipalReady (s : State) (sender : Tag) (e : EndId) : Option State :=
  let say := fun o => [answerTo sender .principalReady (some e) o none]
  match s.pet.join with
  | some j =>
    if j.signalFrom .absorbed .awaitReady sender e then
      s.answered (say .done) fun s =>
        { s with
          pet := { s.pet with join := some { j with phase := .yielding } }
          form := { s.form with procedure := some .yielding, countdown := 4, countdownFresh := true,
                                otherTag := some j.report.header.leader } }
    else s.answered (say .stale) id
  | none => s.answered (say .stale) id

/-- A want decided by the arbiter and answered (R97). -/
def State.takeDecided (s : State) (sender : Tag) (k : WantKind) (d : State × AnswerOutcome) : Option State :=
  s.answered [answerTo sender k none d.2 none] fun _ => d.1

/-! ## Wants of members and of the leader itself (R90, R91) -/

/-- A member's want dispatched by kind; none if it is not taken (R90, R96). (DEDUCED, log 51) -/
def State.dispatch (s : State) (sender : Tag) (b : PetitionBody) : Option State :=
  if b.kind ≠ .none && s.answerWaits sender false b.kind b.wantEnd then some s
  else match b with
    | .none => some s
    | .joinSeen e h _ ens => s.takeFragment sender e h ens
    | .foreignQuiet e c hd => s.takeForeignQuiet sender e c hd
    | .principalReady e => s.takePrincipalReady sender e
    | .brk e c cap fx => s.takeBreak sender e c (some cap) fx
    | .split p => s.takeSplit sender p
    | .splitCancel p => s.takeSplitCancel sender p
    | .cabClaim => s.takeDecided sender .cabClaim (s.decideClaim sender)
    | .cabRelease => s.takeDecided sender .cabRelease (s.decideRelease sender)
    | .heading d => s.takeDecided sender .heading (s.decideHeading sender d)
    | .enroll _ _ => some s

/-- A SPLIT or SPLIT_CANCEL whose joint is gone leaves the queue with a STALE notice (R129). -/
def State.staleJoint (s : State) (k : WantKind) : State :=
  (s.dropWant k none).notify rankOutcome (.splitOutcome k (.answer .stale none))

/-- One queued want offered to the leader's own petition unit (R91, R129). A JOIN_SEEN is complete at once. (DEDUCED, log 42) -/
def State.offer (s : State) (w : Want) : State :=
  let own := s.ownTag
  let taken := match w with
    | .joinSeen e r _ => s.place (.join own e r)
    | .foreignQuiet e c hd => s.takeForeignQuiet own e c hd
    | .principalReady e => s.takePrincipalReady own e
    | .brk e c cap fx => s.takeBreak own e c cap fx
    | .split _ l h => match rejoin l h s.entries with
      | some (p, _, _) => s.takeSplit own p
      | none => some (s.staleJoint .split)
    | .splitCancel _ l h => match rejoin l h s.entries with
      | some (p, _, _) => s.takeSplitCancel own p
      | none => some (s.staleJoint .splitCancel)
    | .cabClaim => s.takeDecided own .cabClaim (s.decideClaim own)
    | .cabRelease => s.takeDecided own .cabRelease (s.decideRelease own)
    | .heading d => s.takeDecided own .heading (s.decideHeading own d)
  taken.getD s

/-- The queued want of a kind and end offered, if it is still there. -/
def State.offerKey (s : State) (k : WantKind × Option EndId) : State :=
  match s.wantOf k.1 k.2 with
  | some w => s.offer w
  | none => s

/-- Every want in the leader's own queue offered, in queue order (R88, R91). -/
def State.offerWants (s : State) : State :=
  (s.pet.queue.map fun w => (w.kind, w.wantEnd)).foldl State.offerKey s

/-- A want is queued; in LEAD it is offered at the moment it is queued (R85, R91). -/
def State.queueWant (s : State) (w : Want) : State :=
  let s1 : State := { s with pet := { s.pet with queue := putWant w s.pet.queue } }
  if s.form.node = .lead then s1.offer w else s1

/-! ## BREAK wants (R13) -/

/-- The cause of a BREAK on an end as it stands (R13). -/
def EndUnit.cause (u : EndUnit) : Cause :=
  if u.mode = .isolated then .isolated
  else match u.contact with
    | .opened => .opened
    | .closed | .unknown => .line

/-- The BREAK want of an end event on an inner end that is not upstream, in LEAD and MEMBER (R13). -/
def State.breakWant (s : State) (e : EndId) : State :=
  if (s.form.node = .lead || s.form.node = .member) && s.inner e && s.upstream != some e then
    s.queueWant (.brk e (s.endUnit e).cause s.capture (s.fixedEnd e))
  else s

/-! ## Entry into LEAD (R88, R99, R101, R138) -/

/-- The part enters LEAD with a table to lead from its first generated mark on (R138). (DEDUCED, log 43) -/
def State.enterLead (s : State) (led : Led) (lastMark : Option MarkFields) : State :=
  let s1 : State := { s with
    form := { s.form with
      node := .lead, led := some led, fastPath := none, yieldRecord := none, seek := none,
      procedure := none, countdown := 0, countdownFresh := false, otherTag := none, rollPointer := none }
    pet := (({ s.pet.leaveLead with silence := rekeySilence s.ownTag [] s.entries } : PetitionUnit).setCab
      (lastMark.bind fun m => holderOf m s.entries)) }
  s1.forgetJoins.rewindWants.offerWants

/-- The epoch a successor takes: the followed epoch + 1 (R51, R138). -/
def State.successorEpoch (s : State) : Epoch := ((s.timer.followed.map Prod.snd).getD 0) + 1

/-- The designated B leader executes the split on its side (R139). -/
def State.executeB (s : State) (b : Table) : State :=
  s.enterLead { table := { b with epoch := s.successorEpoch }, by_ := .designatedB } s.timer.latched

/-- The fast-path leader's kept run: from its own position through the outer end beyond its non-upstream end (R144). (DEDUCED, log 48) -/
def State.remnantEntries (s : State) : List Entry :=
  let q := s.ownPosition
  match s.upstream with
  | some e => if s.sideOf e = .ref then keepRun s.entries q s.n else keepRun s.entries 1 q
  | none => keepRun s.entries q s.n

/-- The fast path into LEAD, with the capture of the upstream carrier loss (R143, R144). (DEDUCED, log 48) -/
def State.fastLead (s : State) (cap : Capture) : State :=
  let rem : Remnant := match s.upstream with
    | some e => { cause := (s.endUnit e).cause, capture := cap, fixed := s.fixedEnd e }
    | none => { cause := .line, capture := cap, fixed := false }
  s.enterLead
    { table := { epoch := s.successorEpoch, entries := grantKept s.settings.period s.ownTag s.remnantEntries },
      by_ := .fastPath rem }
    s.timer.latched

/-- Table B of a part that is armed complete and the designated B leader (R63, R139). -/
def State.designatedTable (s : State) : Option Table :=
  if (s.form.node = .member || s.form.node = .orphan) && s.armedComplete
      && s.form.designatedB == some s.ownTag then
    match s.form.armedA, s.form.armedB with
    | some a, some b => some (if holdsTag b.entries s.ownTag then b else a)
    | _, _ => none
  else none

/-! ## End events (R2, R3, R13, R139, R144) -/

/-- What a carrier loss on an end sets going in the formation: BREAK, the fast-path mark, or an entry into LEAD. -/
def State.onCarrierLoss (s : State) (e : EndId) : State :=
  if s.upstream = some e && (s.form.node = .member || s.form.node = .orphan) then
    match s.designatedTable with
    | some b => s.executeB b
    | none =>
      if s.form.node = .member then { s with form := { s.form with fastPath := some s.capture } }
      else s.fastLead s.capture
  else s.breakWant e

/-- What a qualified OPEN on an end sets going in the formation. At the joint of a designated B leader that has not sent its
first mark it queues a BREAK as at any inner end of a leader (R13, R139, DESIGN CHOICE, log 74). -/
def State.onContactOpen (s : State) (e : EndId) : State :=
  if s.upstream = some e && (s.form.node = .member || s.form.node = .orphan) then
    match s.designatedTable with
    | some b => s.executeB b
    | none => s
  else s.breakWant e

/-- A carrier change on an end: the END_EVENT notice outside DETACHED, then what a loss does (R3, R15). -/
def State.carrierEvent (s : State) (e : EndId) (c : CarrierState) : State :=
  let s1 := if s.form.node = .detached then s
    else s.notify rankOther (.endEvent e (.carrier c) s.capture)
  if c = .absent then (s1.mapEnd e EndUnit.toQuiet).onCarrierLoss e else s1

end Sys2Proof.Machine
end

