-- ==== Sys2Proof/Machine/Detector.lean ====
section
/-! DEFINITION. Join detection on an outer end, with the wants it queues (R14 to R20). -/

namespace Sys2Proof.Machine

open Sys2Proof

/-- A complete foreign table whose adjacent car passes the check is reported once the contact is CLOSED; a failed check
abandons the sighting (R18, R19). -/
def State.tryReport (s : State) (e : EndId) : State :=
  let u := s.endUnit e
  if s.detecting e && u.detect == .collecting then
    if u.checkFails then s.mapEnd e EndUnit.resight
    else match u.report (s.fixedEnd e) with
      | some r =>
        if u.contact = .closed then
          (s.mapEnd e fun u => { u with
            phase := .reported, watch := .none, answered := false, reported := some r.header.leader }).queueWant
            (.joinSeen e r 0)
        else s
      | none => s
  else s

/-- A well-formed mark at an outer end, at hop `hop` and from origin side `side` (R14, R16 to R20). (DEDUCED, log 25) -/
def State.detectMark (s : State) (e : EndId) (m : MarkFields) (hop : Nat) (side : Side) : State :=
  if some m.leader = s.leaderTag then s
  else
    let ready := (s.endUnit e).admitSeen s.leaderTag m
    let s1 := s.mapEnd e fun u =>
      ((u.foreignMark s.now m).watchYield s.leaderTag m).readAdjacent hop .leader side
    if ready then
      (s1.mapEnd e fun u => { u with watch := .ready }).queueWant (.principalReady e)
    else s1.tryReport e

/-- A well-formed roll record at an outer end (R17, R18). -/
def State.detectRoll (s : State) (e : EndId) (r : RollFields) (hop : Nat) (side : Side) : State :=
  (s.mapEnd e fun u => (u.foreignRoll r).readAdjacent hop .leader side).tryReport e

/-- A petition or channel record at an outer end: its source position, at hop 0, names the adjacent car (R14, R18). -/
def State.detectOther (s : State) (e : EndId) (source hop : Nat) (side : Side) : State :=
  (s.mapEnd e fun u => u.readAdjacent hop (.position source) side).tryReport e

/-- The foreign marks have been missing for 2 × P: detection returns to QUIET (R16). -/
def State.foreignSilence (s : State) (e : EndId) : State := s.mapEnd e EndUnit.toQuiet

/-- The foreign formation has yielded and fallen silent: FOREIGN_QUIET is queued, the join watch is NONE (R20). -/
def State.foreignQuiet (s : State) (e : EndId) : State :=
  let c := (s.endUnit e).foreignCab
  (s.mapEnd e fun u => { u with watch := .none }).queueWant (.foreignQuiet e c.1 c.2)

end Sys2Proof.Machine
end

