-- ==== Sys2Proof/Machine/Work.lean ====
section
/-! DEFINITION. The leader starts and carries out the items of its work list (R95, R102 to R104, R109, R112, R125,
R131, R134, R136, R137, R142, R147). -/

namespace Sys2Proof.Machine

open Sys2Proof

/-! ## When an item starts, and its subject (R95) -/

/-- Whether the item at the head of the work list may be started now (R95): after a disarm, a cancel or a join that a break
ended, behind the mark that carries STEADY (R112, R133, R135). A leader that waits for its first mark has no
procedure unless it resumed (R116, DEDUCED, log 43). -/
def State.mayStart (s : State) : Option WorkItem :=
  match s.pet.work with
  | [] => none
  | it :: _ =>
    let free := match s.pet.inProgress with
      | none => s.form.procedure == some .steady && !s.pet.deferred
      | some (.split _ _ _ _) =>
        it.urgent && (s.form.procedure == some .arming || s.form.procedure == some .armed)
      | some (.join _ _ _) =>
        it.urgent && (s.pet.join.any fun j => j.phase == .admitting || j.phase == .awaitReady)
      | some _ => false
    if s.form.node = .lead && free then some it else none

/-- Whether an item's subject is still present in the current table, its requester among it (R95). (DEDUCED, log 52) -/
def State.subjectPresent (s : State) : WorkItem → Bool
  | .join t e _ => holdsTag s.entries t && outerIn s.entries t e
  | .brk t e _ _ _ => innerIn s.entries t e
  | .split r l h _ => holdsTag s.entries r && (rejoin l h s.entries).isSome
  | .enroll _ _ _ => true
  | .dropout t => holdsTag s.entries t
      && (s.pet.silence.any fun c => c.tag == t && decide (s.settings.silenceLimit ≤ c.count))

/-- An item whose subject is gone: STALE for its requester, or nothing for a DROPOUT and for a requester that has left
the table (R95). -/
def State.dropItem (s : State) (it : WorkItem) : State :=
  match it with
  | .join t e _ => if holdsTag s.entries t then s.answer (answerTo t .joinSeen (some e) .stale none) else s
  | .brk t e _ _ _ => if holdsTag s.entries t then s.answer (answerTo t .brk (some e) .stale none) else s
  | .split t _ _ _ => if holdsTag s.entries t then s.answer (answerTo t .split none .stale none) else s
  | .enroll _ _ _ | .dropout _ => s

/-! ## Carrying out -/

/-- The item is in progress. -/
def State.begin (s : State) (it : WorkItem) : State := { s with pet := { s.pet with inProgress := some it } }

/-- Whether the two lists of entries share a car tag. -/
def tagsMeet (a b : List Entry) : Bool := a.any fun en => holdsTag b en.tag

/-- The admissibility tests of a join, in their order (R102). Whether the foreign table itself repeats a car tag is not among
them (R50, DESIGN CHOICE, log 105). -/
def State.joinRefusal (s : State) (r : ForeignReport) (period : Nat) : Option Reason :=
  let n := s.n
  let m := r.header.size
  if s.settings.formationLimit < n + m then some .limit
  else if tagsMeet s.entries r.entries then some .conflict
  else if roundCapacity period (n + m) < safetyDemand s.entries + safetyDemand r.entries then some .capacity
  else none

/-- Whether the leader's formation is the principal of a join (R102). -/
def State.isPrincipal (s : State) (h : JoinHeader) : Bool :=
  decide (h.size < s.n) || (s.n == h.size && decide (s.ownTag < h.leader))

/-- A JOIN decided (R102 to R104, R109). -/
def State.decideJoin (s : State) (t : Tag) (e : EndId) (r : ForeignReport) : State :=
  let principal := s.isPrincipal r.header
  let period := if principal then s.settings.period else r.header.period
  match s.joinRefusal r period with
  | some why => s.answer (answerTo t .joinSeen (some e) .joinRefused (some why))
  | none =>
    let j : JoinProgress :=
      { role := if principal then .principal else .absorbed, reporter := t, reporterEnd := e, report := r,
        phase := if principal then .admitting else .awaitReady, wait := 0, foreignHolder := none }
    let s1 := s.begin (.join t e r)
    let s2 : State := { s1 with pet := { s1.pet with join := some j } }
    if principal then
      ({ s2 with form := { s2.form with procedure := some .admitting, otherTag := some r.header.leader } } : State).answer
        (answerTo t .joinSeen (some e) .joinPrincipal none)
    else s2.answer (answerTo t .joinSeen (some e) .joinAbsorbed none)

/-- The run a BREAK keeps: the leader's side of the reporter's named end (R142). -/
def breakRun (ens : List Entry) (t : Tag) (e : EndId) : List Entry :=
  match entryOf ens t with
  | some en =>
    if en.orientation.sideOf e = .far then keepRun ens 1 en.position else keepRun ens en.position ens.length
  | none => ens

/-- The table of an unplanned break or a dropout announced (R142, R147). -/
def State.announceKept (s : State) (it : WorkItem) (ens : List Entry) : State :=
  (s.begin it).announce (grantKept s.settings.period s.ownTag ens)

/-- A SPLIT carried out: tables A and B, the designated B leader, the split record, ARMING (R62, R131). -/
def State.startSplit (s : State) (it : WorkItem) (requester low high : Tag) : State :=
  match rejoin low high s.entries with
  | none => s
  | some (p, l, h) =>
    let below := keepRun s.entries 1 p
    let above := keepRun s.entries (p + 1) s.n
    let inBelow := holdsTag below s.ownTag
    let make := fun ens => ({ epoch := s.nextEpoch, entries := grantRates s.settings.period ens } : Table)
    let b := if inBelow then h else l
    let s1 := s.begin it
    ({ s1 with
        form := { s1.form with
          armedA := some (make (if inBelow then below else above))
          armedB := some (make (if inBelow then above else below))
          designatedB := some b
          procedure := some .arming, otherTag := none, countdownFresh := true }
        pet := { s1.pet with split := some { low := l, high := h, requester := requester, designatedB := b,
                                             stage := .arming, armedTime := 0, execution := 0 } } } :
      State).withShadows s.form

/-- The insertion point of a recorded place in the current table: the number of cars before it; none if the place does
not hold (R125). -/
def TagPlace.point (ens : List Entry) : TagPlace → Option Nat
  | .after first second =>
    match entryOf ens first with
    | some en =>
      if (entryAt ens (en.position + 1)).map Entry.tag = second then some en.position else none
    | none => none
  | .beforeFirst first => if positionOf ens first = 1 then some 0 else none

/-- The admissibility tests of an enrolment, in their order (R125). CONFLICT is judged by the would-be entry's tag, the item
and its answers go by the sender's (DESIGN CHOICE, log 73). -/
def State.enrollRefusal (s : State) (en : Entry) : Option Reason :=
  if s.settings.formationLimit < s.n + 1 then some .limit
  else if holdsTag s.entries en.tag then some .conflict
  else if roundCapacity s.settings.period (s.n + 1) < safetyDemand s.entries + en.safetyDemand then some .capacity
  else none

/-- An ENROLL carried out (R125). -/
def State.startEnroll (s : State) (it : WorkItem) (t : Tag) (en : Entry) (pl : TagPlace) : State :=
  match pl.point s.entries with
  | none => s.answer (answerApplicant t .stale none)
  | some a =>
    match s.enrollRefusal en with
    | some why => s.answer (answerApplicant t .refused (some why))
    | none =>
      ((s.begin it).announce (grantRates s.settings.period (insertEntry s.entries a en))).answer
        (answerApplicant t .accepted none)

/-- An item that passed its subject check, carried out in STEADY. -/
def State.carryOut (s : State) (it : WorkItem) : State :=
  match it with
  | .join t e r => s.decideJoin t e r
  | .brk t e _ _ _ => s.announceKept it (breakRun s.entries t e)
  | .split r l h _ => s.startSplit it r l h
  | .enroll t en pl => s.startEnroll it t en pl
  | .dropout t => s.announceKept it (removePosition s.entries (positionOf s.entries t))

/-! ## Items that end a join or a split (R112, R134, R136, R137) -/

/-- A BREAK at the armed joint: reported by the keyed car in A, at its end facing the keyed car in B (R134). -/
def State.atArmedJoint (s : State) (sp : SplitRecord) (it : WorkItem) : Bool :=
  match it with
  | .brk t e _ _ _ =>
    let a := if sp.designatedB = sp.low then sp.high else sp.low
    match entryOf s.entries a, entryOf s.entries sp.designatedB with
    | some x, some y =>
      t == a && ((y.position == x.position + 1 && x.orientation.sideOf e == .far)
        || (y.position + 1 == x.position && x.orientation.sideOf e == .ref))
    | _, _ => false
  | _ => false

/-- The mark number j of the switch of an executed split, for the next mark's cycle index (R136). -/
def switchMarkNumber (i : Nat) : Nat := if i = 0 then 5 else 5 - i

/-- A started item takes the place of what it ended, in a leader that owes a mark with STEADY: its re-forming begins at that
mark (R134, R137, DEDUCED, log 19). (DEDUCED, log 20) -/
def State.startLater (s : State) (it : WorkItem) : State :=
  if s.subjectPresent it then s.begin it else s.dropItem it

/-- A BREAK or DROPOUT started over a split in ARMING or ARMED (R134, R136, R137). -/
def State.startOverSplit (s : State) (sp : SplitRecord) (it : WorkItem) : State :=
  if s.atArmedJoint sp it then
    let s1 := s.begin it
    if sp.stage = .armed then
      { s1 with pet := { s1.pet with split := some { sp with
          stage := .executing, execution := switchMarkNumber ((s.timer.index + 1) % 4) - 1 } } }
    else
      let s2 := s1.steadyNext
      ({ s2 with pet := { s2.pet with split := some { sp with stage := .executing } } } :
        State).answer (answerTo sp.requester .split none .disarmed (some .brk))
  else (s.disarm sp .brk).startLater it

/-- A BREAK or DROPOUT started over a join in ADMIT or AWAIT_READY (R112). An absorbed leader is in STEADY and carries it
out at once, a principal after its next mark (DEDUCED, log 19). -/
def State.startOverJoin (s : State) (j : JoinProgress) (it : WorkItem) : State :=
  let s1 := s.endJoin.answer (answerTo j.reporter .joinSeen (some j.reporterEnd) .joinAbandoned (some .brk))
  if j.role = .principal then s1.steadyNext.startLater it
  else if s1.subjectPresent it then s1.carryOut it else s1.dropItem it

/-- The join assemblies without the one that a started item was made from (R93). -/
def assembliesWithout (it : WorkItem) (js : List JoinAssembly) : List JoinAssembly :=
  match it with
  | .join t e _ => js.filter fun j => !(j.reporter == t && j.reporterEnd == e)
  | .brk _ _ _ _ _ | .split _ _ _ _ | .enroll _ _ _ | .dropout _ => js

/-- The head item removed from the list and started (R93, R95). -/
def State.startItem (s : State) (it : WorkItem) : State :=
  let s0 : State := { s with pet := { s.pet with
    work := s.pet.work.tail, joins := assembliesWithout it s.pet.joins } }
  match s.pet.inProgress, s.pet.split, s.pet.join with
  | some (.split _ _ _ _), some sp, _ => s0.startOverSplit sp it
  | some (.join _ _ _), _, some j => s0.startOverJoin j it
  | _, _, _ => if s0.subjectPresent it then s0.carryOut it else s0.dropItem it

/-- WORK_ITEM_START (R95). -/
def execWorkItemStart (s : State) : Result :=
  whenPowered s fun s => match s.mayStart with
    | some it => finish s (s.startItem it)
    | none => .next s

end Sys2Proof.Machine
end

