-- ==== Sys2Proof/Machine/LeaderCycle.lean ====
section
/-! DEFINITION. The cycle starts of a leader, and the times that end its waits (R29 to R31, R46, R57, R58, R62, R83, R92,
R98, R107 to R110, R116, R132, R133, R136, R138). -/

namespace Sys2Proof.Machine

open Sys2Proof

/-! ## Which cycle start comes next -/

/-- The cycle starts of a part in LEAD, one for each row of the table. -/
inductive LeadStart where
  | firstMark
  | switchMark
  | armedReached
  | splitSwitch
  | yieldEnd
  | principalDeadline
  | absorbedDeadline
  | generated
  deriving DecidableEq, Repr

/-- The deadline a join in progress meets at the next generated cycle start (R107, R109). -/
def JoinProgress.deadline (j : JoinProgress) : Option LeadStart :=
  match j.role, j.phase with
  | .principal, .admitting => if Config.admitLimit ≤ j.wait + 1 then some .principalDeadline else none
  | .absorbed, .awaitReady => if Config.awaitReadyLimit ≤ j.wait + 1 then some .absorbedDeadline else none
  | _, _ => none

/-- The next cycle start of a part in LEAD. -/
def State.leadStart (s : State) : Option LeadStart :=
  if s.form.node ≠ .lead then none
  else if s.form.led.isSome then (if s.timer.lock = .generating then none else some .firstMark)
  else if s.timer.lock ≠ .generating then none
  else
    let ends := !s.form.countdownFresh && decide (s.form.countdown ≤ 1)
    match s.form.procedure, s.pet.split with
    | some .announce, _ => some (if ends then .switchMark else .generated)
    | some .arming, _ => some (if ends then .armedReached else .generated)
    | some .yielding, _ => some (if ends then .yieldEnd else .generated)
    | some .armed, some sp =>
      some (if sp.stage = .executing && sp.execution = 0 then .splitSwitch else .generated)
    | _, _ => some ((s.pet.join.bind JoinProgress.deadline).getD .generated)

/-- The instant at which the counter returns to 0 (R23, R29). -/
def State.counterReturn (s : State) : Nat := s.now + (s.period - s.timer.counter)

/-! ## Silence counts at a round start (R92) -/

/-- One member's count at a round start: it rises if the mark is clear; reaching the limit makes a DROPOUT due. -/
def Silence.roundStart (limit : Nat) (c : Silence) : Silence :=
  let count := if c.heard then c.count else min limit (c.count + 1)
  { c with count := count, heard := false,
           owed := if limit ≤ count then (c.owed || decide (c.count < limit)) else false }

/-- The counting at a round start: the tags whose DROPOUT is to be placed now (R92). -/
def State.countSilence (s : State) : State :=
  let counts := s.pet.silence.map (Silence.roundStart s.settings.silenceLimit)
  { s with pet := { s.pet with silence := counts, silenceDue := (counts.filter Silence.owed).map Silence.tag } }

/-! ## The start of a generated cycle -/

/-- The counter is back at 0: timer, channel unit, and the counting of a round start over the old table
(R26, R29, R92, R156; the reference follows each generated start, with hop 0, DEDUCED, log 32). (DEDUCED, log 54) -/
def State.openCycle (s : State) : State :=
  let t := s.timer.nextCycle
  let s1 : State := { s with timer := { t with
    lock := .generating, counter := 0, period := some s.settings.period, kind := .marked, nextSlot := 0,
    reference := some s.now, refHop := 0, acceptEnd := none, early := 0, earlyHold := false, earlySeen := false,
    missed := 0 } }
  let s2 := s1.turnCycle
  if s2.timer.index = 0 then s2.countSilence else s2

/-- The fields latched for a generated mark (R29, R98). -/
def State.markFields (s : State) : MarkFields :=
  let holder := s.pet.holder.bind fun t => entryOf s.entries t
  { leader := s.ownTag
    epoch := (s.form.current.map Table.epoch).getD 0
    n := s.n
    index := s.timer.index
    round := s.timer.round
    period := s.settings.period
    procedure := s.form.procedure.getD .steady
    countdown := s.form.countdown
    cab := (holder.map Entry.position).getD 0
    heading := match holder with
      | some en => s.pet.cabHeading.toTrain en.orientation
      | none => .none
    other := if s.form.procedure = some .admitting || s.form.procedure = some .yielding then s.form.otherTag else none }

/-- The mark with STEADY that was owed is latched: the re-forming of an item in progress begins (R134, R137), without one the
next item may start (R133, R135). The item's subject is not checked again (DEDUCED, log 88). -/
def State.beginDeferred (s : State) : State :=
  if s.pet.deferred then
    let s1 : State := { s with pet := { s.pet with deferred := false } }
    match s.pet.inProgress with
    | some it => s1.carryOut it
    | none => s1
  else s

/-- The mark is latched and handed to the end units (R11, R29); a changed procedure sets the roll pointer to the first
table of its list (R53); a mark that is neither ARMING nor ARMED lets go of the armed tables, `switch` tells a mark that
changes the current table. Then the cab is compared (R100), channels are taken (R150), a deferred re-forming begins
(R134), and at a round start the own wants are offered (R91). (DEDUCED, log 9 and log 22; of a part that has just become
APPLICANT, DESIGN CHOICE, log 95) -/
def State.latchMark (s : State) (switch : Bool) : State :=
  let m := s.markFields
  let changed := switch || s.timer.latched.map MarkFields.procedure != some m.procedure
  let armed := m.procedure == .arming || m.procedure == .armed
  let s1 : State := { s with
    timer := { s.timer with latched := some m }
    form := { (if armed then s.form else s.form.dropArmed) with
      rollPointer := if changed then some { table := 0, index := 1 } else s.form.rollPointer } }
  let s2 := (((s1.withShadows s.form).sendOwn (markRecord m)).compareCab.takeChannels).beginDeferred
  if s2.timer.index = 0 then s2.offerWants else s2

/-! ## Countdowns (R57, R62) -/

/-- The smallest K from `least` up with (i + K) mod 4 = 0. -/
def countdownFrom (i least : Nat) : Nat := least + (4 - (i + least) % 4) % 4

/-- K_min for a pending table of `n` entries (R57). -/
def announceLeast (n : Nat) : Nat := 2 * ceilDiv n 3 + 2

/-- K_arm_min for armed tables of `a` and `b` entries (R62). -/
def armLeast (a b : Nat) : Nat := 2 * (ceilDiv a 3 + ceilDiv b 3) + 2

/-- The countdown the next mark carries: K at the first mark of ANNOUNCE and ARMING, 4 at the first of YIELD, the
execution countdown of an executed split, else one lower (R57, R62, R110, R136). -/
def State.nextCountdown (s : State) : Nat :=
  let size := fun (t : Option Table) => (t.map Table.size).getD 0
  match s.form.procedure with
  | some .announce =>
    if s.form.countdownFresh then countdownFrom s.timer.index (announceLeast (size s.form.pendingT))
    else s.form.countdown - 1
  | some .arming =>
    if s.form.countdownFresh then
      countdownFrom s.timer.index (armLeast (size s.form.armedA) (size s.form.armedB))
    else s.form.countdown - 1
  | some .yielding => if s.form.countdownFresh then 4 else s.form.countdown - 1
  | some .armed => match s.pet.split with
    | some sp => if sp.stage = .executing then sp.execution else 0
    | none => 0
  | _ => 0

/-- The countdown and the waits advance at a generated start (R57, R104, R109, R136). -/
def State.countDown (s : State) : State :=
  let waits := fun (j : JoinProgress) =>
    if j.phase = .admitting || j.phase = .awaitReady then { j with wait := j.wait + 1 } else j
  let exe := fun (sp : SplitRecord) =>
    if sp.stage = .executing then { sp with execution := sp.execution - 1 } else sp
  { s with
    form := { s.form with countdown := s.nextCountdown, countdownFresh := false }
    pet := { s.pet with join := s.pet.join.map waits, split := s.pet.split.map exe } }

/-! ## The starts -/

/-- GENERATED_CYCLE_START: a plain generated start (R29). -/
def State.generate (s : State) : State := s.openCycle.countDown.latchMark false

/-- What the switch mark ends: the item in progress, with the answer or the notice it brings (R108, R137, R142). (DEDUCED, log 21) -/
def State.endAnnounced (s : State) : State :=
  let s1 : State := { s with pet := { s.pet with
    inProgress := none, deferred := false, join := none, split := none } }
  match s.pet.inProgress, s.pet.join with
  | some (.brk t e _ _ _), _ => s1.answer (answerTo t .brk (some e) .done none)
  | some (.join _ _ _), some j =>
    let s2 : State := match s1.pet.holder, j.foreignHolder with
      | none, some h => if holdsTag s1.entries h.1 then { s1 with pet := s1.pet.setCab (some h) } else s1
      | _, _ => s1
    s2.notify rankOutcome (.joinOutcome .joined none none (some j.report.header.leader))
  | _, _ => s1

/-- SWITCH_MARK: the pending table is installed at cycle index 0 (R58). A leader that the table does not hold becomes APPLICANT
(R50); what it latches at that start is log 95 (DESIGN CHOICE). -/
def State.switchTo (s : State) : State :=
  let s1 := s.openCycle.steady
  match s.form.pendingT with
  | some t => ((s1.install t).endAnnounced).latchMark true
  | none => s1.latchMark true

/-- ARMED_REACHED: the mark that carries ARMED (R62, R132). -/
def State.reachArmed (s : State) : State :=
  let s1 := s.openCycle
  let s2 : State := { s1 with
    form := { s1.form with procedure := some .armed, countdown := 0, countdownFresh := false }
    pet := { s1.pet with split := s1.pet.split.map fun sp => { sp with stage := .armed, armedTime := 0 } } }
  let s3 := match s.pet.split with
    | some sp => s2.answer (answerTo sp.requester .split none .armed none)
    | none => s2
  s3.latchMark false

/-- SPLIT_SWITCH: table A is installed on the leader's side (R136). -/
def State.switchSplit (s : State) : State :=
  let s1 := s.openCycle.steady
  match s.form.armedA, s.pet.split with
  | some a, some sp =>
    let s2 := (s1.install a).parted true a (some (sp.low, sp.high))
    let s3 := s2.endSplit
    let s4 := match s.pet.inProgress with
      | some (.brk t e _ _ _) => s3.answer (answerTo t .brk (some e) .done none)
      | _ => s3
    s4.latchMark true
  | _, _ => s1.latchMark true

/-- PRINCIPAL_JOIN_DEADLINE and ABSORBED_JOIN_DEADLINE: the join is abandoned at the cycle start, whose mark carries
STEADY (R107, R109). -/
def State.abandonJoin (s : State) : State :=
  let s1 := s.openCycle.steady
  match s.pet.join with
  | some j =>
    (s1.endJoin.answer
      (answerTo j.reporter .joinSeen (some j.reporterEnd) .joinAbandoned (some .deadline))).latchMark false
  | none => s1.latchMark false

/-! ## SEEK (R113) and YIELD_END (R110) -/

/-- The joint end of a part whose node state changes to SEEK: the end whose join watch is READY (R113). -/
def State.jointEnd (s : State) : Option EndId :=
  if s.e1.watch = .ready then some .e1 else if s.e2.watch = .ready then some .e2 else none

/-- YIELD_END: no mark is sent; the part enters SEEK, and this start is its first coasting start (R42, R110, R113).
Its hop of reference is 0 (DEDUCED, log 32); it follows itself under its table's epoch (DEDUCED, log 85). (DEDUCED, log 16
and log 61) The last mark it generated is the last YIELD mark, with its cab and heading (R116, DESIGN CHOICE, log 112). -/
def State.yieldLead (s : State) : State :=
  let period := s.settings.period
  let epoch := (s.form.current.map Table.epoch).getD 0
  let ref := s.now
  let next := s.timer.nextCycle
  let seek : SeekRecord :=
    { principal := (s.form.otherTag).getD 0, jointEnd := s.jointEnd, locked := false, lockEnd := none,
      oldLeader := s.ownTag, oldEpoch := epoch, oldPeriod := period, formerLead := true,
      deadline := ref + Config.seekPeriods * period, awaitCurrent := false, lastOwnMark := s.timer.latched }
  let s1 : State := { s with
    timer := { next with
      latched := s.timer.latched.map fun m => { m with index := next.index, round := next.round }
      lock := .acquiring, counter := 0, period := some period, kind := .flywheel, nextSlot := 0,
      followed := some (s.ownTag, epoch), reference := some ref, refHop := 0, acceptEnd := none,
      early := 0, earlyHold := false, earlySeen := false, missed := 1 }
    form := { s.form.leaveLead with node := .seek, seek := some seek }
    pet := s.pet.leaveLead }
  s1.turnCycle

/-! ## The first mark of a new leader (R31, R83, R138) -/

/-- The instant at which the part would have taken a flywheel or coasting start (R31). -/
def State.firstMarkDue (s : State) : Nat :=
  match s.timer.reference with
  | some r => r + s.period + (if s.timer.lock = .acquiring then 0 else s.tolerance)
  | none => s.now

/-- A table that the new leader did not compute and that overruns its period is granted anew and announced (R83). -/
def State.regrant (s : State) : State :=
  if roundCapacity s.settings.period s.n < grantedDemand s.entries then
    s.announce (grantKept s.settings.period s.ownTag s.entries)
  else s

/-- What a new leader reports when it installs its led table (R136, R143). -/
def State.reportLed (s : State) (joint : Option (Tag × Tag)) (led : Led) : State :=
  match led.by_ with
  | .designatedB => s.parted false led.table joint
  | .fastPath r => s.notify rankOutcome (.breakOutcome .remnant (some (r.cause, r.capture, r.fixed)))
  | .succession | .resume => s

/-- FIRST_GENERATED_MARK: the led table is installed, the procedure is STEADY or ANNOUNCE, the mark is sent (R138). A part
that resumed LEAD has its procedure since then, STEADY or that of an item it has started (R116, DEDUCED, log 76). -/
def State.firstMark (s : State) (led : Led) : State :=
  let s1 := s.openCycle
  let s2 : State := { s1 with form := { s1.form with led := none }, timer := { s1.timer with followed := none } }
  let s3 := (s2.installOwn led.table).reportLed s.armedJoint led
  let s4 := match led.by_ with
    | .resume => s3
    | .designatedB => s3.steady.regrant
    | .fastPath _ | .succession => s3.steady
  s4.countDown.latchMark true

/-! ## Entry into LEAD from LISTEN (R30, R46, R47) -/

/-- The part's own entry as the sole car of a formation (R47). -/
def Snapshot.soleEntry (sn : Snapshot) : Entry :=
  { position := 1, tag := sn.identity.tag, unit := sn.identity.unit, orientation := .facing,
    refKind := .outer, farKind := .outer, cab := sn.identity.cab,
    channels := sn.service.channels.map fun c =>
      { cls := c.cls, requested := c.requested, granted := c.requested, sided := c.sided } }

/-- The entry of the snapshot in use. -/
def State.soleEntry (s : State) : Entry :=
  match s.store.snapshot with
  | some sn => sn.soleEntry
  | none => { position := 1, tag := 0, unit := 0, orientation := .facing, refKind := .outer, farKind := .outer,
              cab := false, channels := [] }

/-- LISTEN_TIMEOUT: LEAD of a formation of one car, its first mark sent at once (R30, R46). Its reference is this start, with hop 0
(DEDUCED, log 32). -/
def State.leadAlone (s : State) : State :=
  let s1 : State := { s with
    form := { s.form with node := .lead, listenTimer := 0, listenCandidate := none,
                          procedure := some .steady, countdown := 0, countdownFresh := false, otherTag := none }
    pet := s.pet.leaveLead
    timer := { s.timer with
      lock := .generating, counter := 0, period := some s.settings.period, index := 0, round := 0,
      kind := .marked, nextSlot := 0, reference := some s.now, refHop := 0, acceptEnd := none, followed := none,
      early := 0, earlyHold := false, earlySeen := false, missed := 0 } }
  (s1.installOwn { epoch := 0, entries := [s.soleEntry] }).latchMark true

/-! ## Meanings -/

/-- A cycle start of a leader that comes when the counter returns to 0. -/
def leaderRow (s : State) (row : LeadStart) (f : State → State) : Result :=
  whenPowered s fun s =>
    if s.leadStart = some row then
      let t := s.advanceTo s.counterReturn
      finish t (f t)
    else .next s

/-- GENERATED_CYCLE_START (R29). -/
def execGeneratedCycleStart (s : State) : Result := leaderRow s .generated State.generate

/-- SWITCH_MARK (R58). -/
def execSwitchMark (s : State) : Result := leaderRow s .switchMark State.switchTo

/-- ARMED_REACHED (R132). -/
def execArmedReached (s : State) : Result := leaderRow s .armedReached State.reachArmed

/-- SPLIT_SWITCH (R136). -/
def execSplitSwitch (s : State) : Result := leaderRow s .splitSwitch State.switchSplit

/-- YIELD_END (R110). -/
def execYieldEnd (s : State) : Result := leaderRow s .yieldEnd State.yieldLead

/-- PRINCIPAL_JOIN_DEADLINE (R107). -/
def execPrincipalJoinDeadline (s : State) : Result := leaderRow s .principalDeadline State.abandonJoin

/-- ABSORBED_JOIN_DEADLINE (R109). -/
def execAbsorbedJoinDeadline (s : State) : Result := leaderRow s .absorbedDeadline State.abandonJoin

/-- FIRST_GENERATED_MARK (R138). -/
def execFirstGeneratedMark (s : State) : Result :=
  whenPowered s fun s =>
    match s.form.led, s.leadStart with
    | some led, some .firstMark =>
      let t := s.advanceTo s.firstMarkDue
      finish t (t.firstMark led)
    | _, _ => .next s

/-- LISTEN_TIMEOUT (R46). -/
def execListenTimeout (s : State) : Result :=
  whenPowered s fun s =>
    if s.form.node = .listen then
      let t := s.advance (Config.listenTicks - s.form.listenTimer)
      finish t t.leadAlone
    else .next s

/-- ARMED_TIMEOUT (R133). -/
def execArmedTimeout (s : State) : Result :=
  whenPowered s fun s =>
    match s.pet.split with
    | some sp =>
      if s.form.node = .lead && sp.stage = .armed then
        let t := s.advance (s.settings.armedTimeout * Config.ticksPerSecond - sp.armedTime)
        finish t (t.disarm sp .timeout)
      else .next s
    | none => .next s

/-- SILENCE_LIMIT: the DROPOUT item of the first tag due is placed, if the list has room (R92). (DEDUCED, log 33) -/
def execSilenceLimit (s : State) : Result :=
  whenPowered s fun s =>
    match s.pet.silenceDue with
    | t :: rest =>
      let s1 : State := { s with pet := { s.pet with silenceDue := rest } }
      match s1.place (.dropout t) with
      | some s2 => finish s { s2 with pet := { s2.pet with
          silence := s2.pet.silence.map fun c => if c.tag = t then { c with owed := false } else c } }
      | none => finish s s1
    | [] => .next s

end Sys2Proof.Machine
end

