-- ==== Sys2Proof/Machine/Applicant.lean ====
section
/-! DEFINITION. The applicant: its record, survey, assessment, answers and installation (R119 to R123, R126, R127). -/

namespace Sys2Proof.Machine

open Sys2Proof

/-- The applicant record changed. -/
def State.mapApplicant (s : State) (f : ApplicantRecord → ApplicantRecord) : State :=
  { s with form := { s.form with applicant := s.form.applicant.map f } }

/-- Both ends' readings and marks cleared (R120). -/
def ApplicantRecord.clearSurvey (a : ApplicantRecord) : ApplicantRecord :=
  { a with survey1 := SurveyEnd.clear, survey2 := SurveyEnd.clear }

/-- The survey of one end changed. -/
def ApplicantRecord.mapSurvey (e : EndId) (f : SurveyEnd → SurveyEnd) (a : ApplicantRecord) : ApplicantRecord :=
  match e with
  | .e1 => { a with survey1 := f a.survey1 }
  | .e2 => { a with survey2 := f a.survey2 }

/-! ## Survey readings (R120) -/

/-- A reading for an end: of lowest hop; of equal hop from another position it makes the end conflicting (R120). -/
def SurveyEnd.read (r : Reading) (v : SurveyEnd) : SurveyEnd :=
  match v.reading with
  | none => { v with reading := some r }
  | some h =>
    if r.hop < h.hop then { v with reading := some r }
    else if r.hop = h.hop && r.position ≠ h.position then { v with conflicting := true }
    else v

/-- A survey reading taken from a record of a car of the heard table. -/
def State.survey (s : State) (e : EndId) (position hop : Nat) (side : Side) : State :=
  s.mapApplicant (ApplicantRecord.mapSurvey e (SurveyEnd.read { position := position, hop := hop, side := side }))

/-- The entries of the heard table gathered so far. -/
def State.heardEntries (s : State) : List Entry :=
  match s.form.asmCurrent with
  | some a => a.entries
  | none => []

/-- A record of the heard leader read: at the position of the heard leader's entry. -/
def State.surveyLeader (s : State) (e : EndId) (hop : Nat) (side : Side) : State :=
  match s.timer.followed with
  | some (t, _) =>
    match entryOf s.heardEntries t with
    | some en => s.survey e en.position hop side
    | none => s
  | none => s

/-- A mark read: the heard leader's gives a reading, another leader's marks the end foreign (R120). -/
def State.surveyMark (s : State) (e : EndId) (m : MarkFields) (hop : Nat) (side : Side) : State :=
  if s.timer.followed.map Prod.fst = some m.leader then s.surveyLeader e hop side
  else s.mapApplicant (ApplicantRecord.mapSurvey e fun v => { v with foreign := true })

/-- A petition record read (R120). -/
def State.surveyPetition (s : State) (e : EndId) (source : Nat) (sender : Tag) (hop : Nat) (side : Side) : State :=
  match entryAt s.heardEntries source with
  | some en => if en.tag = sender then s.survey e source hop side else s
  | none => s

/-- A channel record read (R120). -/
def State.surveyChannel (s : State) (e : EndId) (c : ChannelFields) (hop : Nat) (side : Side) : State :=
  if (entryAt s.heardEntries c.source).isSome && s.form.asmCurrent.map Assembly.epoch == some c.epoch then
    s.survey e c.source hop side
  else s

/-! ## Assessment (R121) -/

def SurveyEnd.isClear (v : SurveyEnd) : Bool := v.reading.isNone && !v.conflicting && !v.foreign

/-- The reading of an end that is neither conflicting nor foreign. -/
def SurveyEnd.only (v : SurveyEnd) : Option Reading := if v.conflicting || v.foreign then none else v.reading

/-- The place with end X and end Y in one assignment; the second part tells whether the REF end is X (R121). -/
def placeOf (n : Nat) (x y : SurveyEnd) : Option (Place × Bool) :=
  match x.only, y.only with
  | some rx, some ry =>
    if rx.side = .far && ry.side = .ref && ry.position = rx.position + 1 then some (.after rx.position, true)
    else none
  | some rx, none =>
    if y.isClear then
      if rx.position = 1 && rx.side = .ref then some (.beforeFirst, false)
      else if rx.position = n && rx.side = .far then some (.after n, true)
      else none
    else none
  | _, _ => none

/-- The place and the REF end that the readings of the round give, over both assignments (R121). -/
def placeFound (n : Nat) (v1 v2 : SurveyEnd) : Option (Place × EndId) :=
  match placeOf n v1 v2 with
  | some (p, x) => some (p, if x then .e1 else .e2)
  | none => (placeOf n v2 v1).map fun r => (r.1, if r.2 then .e2 else .e1)

/-- The assessment of a round start (R121): place, orientation and status. `n16` tells that the latched mark carries
n = 16. -/
def ApplicantRecord.assess (n : Nat) (n16 : Bool) (a : ApplicantRecord) : ApplicantRecord :=
  match a.status with
  | .gathering | .waiting | .full | .enrolling =>
    match placeFound n a.survey1 a.survey2 with
    | some (p, e) =>
      { a with place := some p, orientation := some (if e = .e1 then .facing else .reversed),
               status := if n16 then .full else .enrolling }
    | none => { a with place := none, orientation := none, status := .waiting }
  | .accepted | .refused _ => a

/-- The round-start count of R122 rises while the status stays ENROLLING; in another status it stands, and goes on from there
(DESIGN CHOICE, log 87). -/
def ApplicantRecord.countRound (a : ApplicantRecord) : ApplicantRecord :=
  if a.status = .enrolling then { a with roundStarts := a.roundStarts.map fun k => min 8 (k + 1) } else a

/-- What an applicant does at a cycle start: at a round start it assesses, counts and clears the readings (R120 to
R122); an ENROLL of the cycle before is over. -/
def State.applicantStart (s : State) : State :=
  if s.form.node = .applicant then
    let s1 := s.mapApplicant fun a => { a with enrollSlot := none }
    if s1.timer.index = 0 then
      let complete := (s1.form.asmCurrent.any Assembly.complete)
      let n := (s1.form.asmCurrent.map Assembly.size).getD 0
      let n16 := match s1.timer.latched with
        | some m => m.n == 16
        | none => false
      s1.mapApplicant fun a =>
        ((if complete then a.assess n n16 else a).countRound).clearSurvey
    else s1
  else s

/-! ## Entry from LISTEN (R45, R119) -/

/-- The third mark of one leader heard in LISTEN: APPLICANT, with that leader as followed leader (R42, R45). -/
def State.applyTo (s : State) (leader : Tag) (epoch : Epoch) : State :=
  { s with
    form := { s.form with node := .applicant, listenTimer := 0, listenCandidate := none,
                          asmCurrent := none, asmPending := none, asmA := none, asmB := none,
                          applicant := some (ApplicantRecord.initial false) }
    timer := { s.timer with followed := some (leader, epoch) } }

/-- A mark judged in LISTEN (R45). -/
def State.listenTo (s : State) (m : MarkFields) : State :=
  let count := match s.form.listenCandidate with
    | some (t, c) => if t = m.leader then c + 1 else 1
    | none => 1
  if 3 ≤ count then s.applyTo m.leader m.epoch
  else { s with form := { s.form with listenTimer := 0, listenCandidate := some (m.leader, count) } }

/-! ## Tables and answers (R126, R127) -/

/-- A part becomes MEMBER from APPLICANT or SEEK: its early and missed counts return to 0 (R42). The record it was applicant
or seeking by is cleared (R115, R127). -/
def State.becomeMember (s : State) : State :=
  { s with
    form := { s.form with node := .member, applicant := none, seek := none }
    timer := { s.timer with early := 0, missed := 0 } }

/-- The applicant installs a table that holds its tag and becomes MEMBER (R127). -/
def State.admitting (s : State) (t : Table) : State :=
  let s1 := s.becomeMember
  (s1.rewindWants.installOwn t).notify rankOutcome (.joinOutcome .enrolled none none (s.timer.followed.map Prod.fst))

/-- The status after an epoch advance that brought a heard table or none (R127). A FULL applicant is WAITING again where the
table found does not hold it (DESIGN CHOICE, log 72). -/
def ApplicantRecord.advance (found : Bool) (a : ApplicantRecord) : ApplicantRecord :=
  let b := a.clearSurvey
  match a.status with
  | .refused _ => { b with regathering := !found }
  | _ => if found then { b with status := .waiting, regathering := false }
         else { b with status := .gathering, regathering := true }

/-- An applicant at an epoch advance (R127): MEMBER, another heard table, or the heard table gathered again. With another heard
table every other table and assembly goes, whatever its epoch (DESIGN CHOICE, log 110). -/
def State.applicantAdvance (s : State) (leader : Tag) (epoch : Epoch) : State :=
  match s.tableOf epoch leader with
  | some found =>
    if holdsTag found.1.entries s.ownTag then (s.admitting found.1).partedAs found s.armedJoint
    else
      ({ s with form := { s.form.dropArmed.dropPending with asmCurrent := some found.1.assembly } } : State).withShadows s.form
        |>.mapApplicant (ApplicantRecord.advance true)
  | none => (s.gatherAnew epoch).mapApplicant (ApplicantRecord.advance false)

/-- A heard table gathered again that completes and holds the own tag is installed at the next cycle start (R127). -/
def State.applicantInstall (s : State) : State :=
  match s.form.applicant, completeTable s.form.asmCurrent with
  | some a, some t =>
    if s.form.node = .applicant && a.regathering then
      if holdsTag t.entries s.ownTag && some t.epoch = s.timer.followed.map Prod.snd then s.admitting t
      else s.mapApplicant fun a => { a with regathering := false }
    else s
  | _, _ => s

/-- An answer addressed to the applicant (R126). An outcome other than the three it lists does nothing (DESIGN CHOICE, log 111). -/
def State.applicantAnswer (s : State) (out : AnswerOutcome) (reason : Option Reason) : State :=
  match out with
  | .accepted => s.mapApplicant fun a => { a with status := .accepted }
  | .refused =>
    (s.mapApplicant fun a => { a with status := .refused reason }).notify rankOutcome
      (.joinOutcome .enrollRefused reason none (s.timer.followed.map Prod.fst))
  | .stale => s.mapApplicant fun a => { a.clearSurvey with status := .waiting, place := none, orientation := none }
  | _ => s

/-! ## The ENROLL (R122, R123) -/

/-- Whether a round is one in which the applicant sends: round count modulo 8 equals bits 3a to 3a + 2 of its tag (R122). -/
def enrollRound (tag : Tag) (attempt : Nat) (round : Round) : Bool :=
  round.toNat % 8 == tag.toNat / 8 ^ attempt % 8

/-- The would-be entry of an applicant (R123). -/
def State.wouldBeEntry (s : State) (p : Place) (o : Orientation) : Entry :=
  let kind := fun (sd : Side) => if s.fixedEnd (o.endOn sd) then CouplingKind.fixed else CouplingKind.service
  { s.soleEntry with
    position := match p with
      | .after a => a + 1
      | .beforeFirst => 1
    orientation := o, refKind := kind .ref, farKind := kind .far }

/-- The ENROLL sent at the applicant cell start of a MARKED cycle, at most once in a round (R122, R123); its origin side is
REF on the chosen REF end. In that cell the ends carry it in place of the bypass traffic. A round is told by its round count
(DESIGN CHOICE, log 115). -/
def State.sendEnroll (s : State) (slot : Nat) : State :=
  match s.form.applicant with
  | some a =>
    match a.status, a.place, a.orientation with
    | .enrolling, some p, some o =>
      if enrollRound s.ownTag a.attempt s.timer.round && a.sentRound != some s.timer.round then
        let rec_ := petitionRecord 0 s.ownTag (.enroll p (s.wouldBeEntry p o))
        let put := fun (s : State) (e : EndId) =>
          if s.condition e = .isolated then s else s.sendOwnOn e (rec_ (o.sideOf e))
        (put (put s .e1) .e2).mapApplicant fun a =>
          { a with roundStarts := some 0, enrollSlot := some slot, sentRound := some s.timer.round }
      else s
    | _, _, _ => s
  | none => s

/-- ENROLL_ATTEMPT_ADVANCE: eight round starts have passed after an ENROLL (R122). -/
def execEnrollAttemptAdvance (s : State) : Result :=
  whenPowered s fun s =>
    match s.form.applicant with
    | some a =>
      if s.form.node = .applicant && a.status = .enrolling && a.roundStarts = some 8 then
        finish s (s.mapApplicant fun a => { a with attempt := (a.attempt + 1) % 16, roundStarts := none })
      else .next s
    | none => .next s

end Sys2Proof.Machine
end

