-- ==== Sys2Proof/Machine/Cells.lean ====
section
/-! DEFINITION. Cell starts: the roll record, the petition, the ENROLL and the channel records a part sends
(R24, R28, R53, R87, R96, R122, R129, R151). -/

namespace Sys2Proof.Machine

open Sys2Proof

/-! ## The roll record (R53, R96) -/

/-- The carry list, by the procedure latched in the cycle's mark (R53). -/
def State.carryList (s : State) : List (TableKind × Table) :=
  let f := s.form
  let whole : List (TableKind × Option Table) :=
    match (s.timer.latched.map MarkFields.procedure).getD .steady with
    | .steady | .admitting | .yielding => [(.current, f.current)]
    | .announce => [(.pending, f.pendingT)]
    | .arming => [(.armedA, f.armedA), (.armedB, f.armedB)]
    | .armed => [(.current, f.current), (.armedA, f.armedA), (.armedB, f.armedB)]
  whole.filterMap fun p => p.2.map fun t => (p.1, t)

/-- The entries i to min(i + 2, size) of a table. -/
def Table.three (t : Table) (i : Nat) : List Entry := (List.range 3).filterMap fun k => entryAt t.entries (i + k)

/-- The roll pointer after a record: three entries on, the next table past the last entry, the first table past the
last table (R53). -/
def RollPointer.pass (tables size : Nat) (p : RollPointer) : RollPointer :=
  if size < p.index + 3 then { table := if p.table + 1 < tables then p.table + 1 else 0, index := 1 }
  else { p with index := p.index + 3 }

/-- An answer as the roll record carries it, its target found in the current table; none if the target is not there
(R96). -/
def Answer.carried (ens : List Entry) (a : Answer) : Option RollAnswer :=
  let at_ := fun (p : Nat) (t : Tag) =>
    ({ position := p, tag := t, kind := a.kind, wantEnd := a.wantEnd, outcome := a.outcome, reason := a.reason } :
      RollAnswer)
  if a.applicant then some (at_ 0 a.target)
  else if holdsTag ens a.target then some (at_ (positionOf ens a.target) 0)
  else none

/-- The oldest answer that can be carried, and the answers behind it; those before it are discarded (R96). -/
def nextAnswer (ens : List Entry) : List Answer → Option RollAnswer × List Answer
  | [] => (none, [])
  | a :: rest =>
    match a.carried ens with
    | some r => (some r, rest)
    | none => nextAnswer ens rest

/-- The roll record of a slot 0 cell start (R53, R96). -/
def State.sendRoll (s : State) : State :=
  let ptr := s.form.rollPointer.getD { table := 0, index := 1 }
  match s.carryList[ptr.table]? with
  | none => s
  | some (kind, t) =>
    let ans := nextAnswer s.entries s.pet.answers
    let rec_ : RollFields :=
      { kind := kind, epoch := t.epoch, size := t.size, first := ptr.index, answer := ans.1, entries := t.three ptr.index }
    let s1 : State := { s with
      form := { s.form with rollPointer := some (ptr.pass s.carryList.length t.size) }
      pet := { s.pet with answers := ans.2 } }
    s1.sendOwn (rollRecord rec_)

/-! ## The petition record (R87, R129) -/

/-- The body a want goes out with; none for a SPLIT or SPLIT_CANCEL whose joint is gone (R87, R129). A BREAK's capture
is never untimed, since it is queued in LEAD and MEMBER only (R13). -/
def State.bodyOf (s : State) : Want → Option PetitionBody
  | .joinSeen e r f => some (.joinSeen e r.header f (({ epoch := r.header.epoch, entries := r.entries } : Table).three (3 * f + 1)))
  | .foreignQuiet e c h => some (.foreignQuiet e c h)
  | .principalReady e => some (.principalReady e)
  | .brk e c cap fx => some (.brk e c (cap.getD { round := 0, index := 0, tick := 0 }) fx)
  | .split _ l h => (rejoin l h s.entries).map fun j => .split j.1
  | .splitCancel _ l h => (rejoin l h s.entries).map fun j => .splitCancel j.1
  | .cabClaim => some .cabClaim
  | .cabRelease => some .cabRelease
  | .heading d => some (.heading d)

/-- A want after it has been sent: a fragment pointer below ceil(m / 3) is raised by one (R87). -/
def Want.sent : Want → Want
  | .joinSeen e r f => .joinSeen e r (if f < ceilDiv r.header.size 3 then f + 1 else f)
  | w => w

/-- The want sent has its pointer raised. -/
def State.wantSent (s : State) (w : Want) : State :=
  { s with pet := { s.pet with queue := s.pet.queue.map fun x => if x.is w.kind w.wantEnd then x.sent else x } }

/-- The body of the oldest want, or NONE; a want whose joint is gone is removed, and the next takes its place (R87,
R129). -/
def State.pickBody : List Want → State → State × PetitionBody
  | [], s => (s, .none)
  | w :: rest, s =>
    match s.bodyOf w with
    | some b => (s.wantSent w, b)
    | none => State.pickBody rest (s.staleJoint w.kind)

/-- The petition record of the own petition cell (R87). -/
def State.sendPetition (s : State) : State :=
  let r := State.pickBody s.pet.queue s
  r.1.sendOwn (petitionRecord r.1.ownPosition r.1.ownTag r.2)

/-! ## Cells (R28) -/

/-- The channel record of a channel cell that the plan gives the part's position (R28, R78, R151). -/
def State.channelCell (s : State) (slot : Nat) : State :=
  match s.planner.inForce.bind fun p => p.owner slot s.timer.index with
  | some c => if c.position = s.ownPosition then s.sendChannel c.channel else s
  | none => s

/-- A slot start handed to the block that sends in that cell (R28). -/
def State.cell (s : State) (slot : Nat) : State :=
  if s.leading then (if slot = 0 then s.sendRoll else s.channelCell slot)
  else if s.timer.kind ≠ .marked then s
  else if s.form.node = .member then
    if !s.synced then s
    else if petitionCell s.ownPosition = (slot, s.timer.index) then s.sendPetition
    else s.channelCell slot
  else if s.form.node = .applicant then
    match s.timer.latched with
    | some m => if applicantCell m.n = some (slot, s.timer.index) then s.sendEnroll slot else s
    | none => s
  else s

/-- The start of a slot is taken: the next boundary is the one behind it, and the slot's block sends (R28, R35). -/
def State.startCell (s : State) (slot : Nat) : State :=
  ({ s with timer := { s.timer with nextSlot := slot + 1 } } : State).cell slot

/-- A correction of the counter takes the roll slot start at 40 where it has passed it (R35). -/
def State.correct (s : State) : State := if 40 ≤ s.timer.counter && s.timer.nextSlot = 0 then s.startCell 0 else s

/-- CELL_START: the counter reaches the next slot start (R24, R28, R35). -/
def execCellStart (s : State) : Result :=
  whenPowered s fun s =>
    if s.timer.lock ≠ .idle && decide (s.timer.nextSlot < s.slots) then
      let slot := s.timer.nextSlot
      let t := s.advance (40 + 100 * slot - s.timer.counter)
      finish t (t.startCell slot)
    else .next s

end Sys2Proof.Machine
end

