-- ==== Sys2Proof/Machine/FollowerCycle.lean ====
section
/-! DEFINITION. The cycle starts of a follower: marks judged and accepted, flywheel and coasting starts, and the entries
into SEEK, ORPHAN and LEAD they bring (R31 to R42, R56, R59, R60, R111, R113 to R117, R140, R144 to R146). -/

namespace Sys2Proof.Machine

open Sys2Proof

/-! ## Windows (R34, R36) -/

/-- The instant the window opens, and the instant it closes. -/
def State.windowOpen (s : State) : Nat := (s.timer.reference.getD 0) + s.period - s.tolerance
def State.windowClose (s : State) : Nat := (s.timer.reference.getD 0) + s.period + s.tolerance

/-- The instant of a coasting start: reference + P (R40). -/
def State.coastDue (s : State) : Nat := (s.timer.reference.getD 0) + s.period

/-! ## Acceptable marks (R33) and alien marks (R41) -/

/-- The entries among which a successor's tag is looked for: the current table's, in APPLICANT the heard table's (R33). -/
def State.knownEntries (s : State) : List Entry := if s.form.node = .applicant then s.heardEntries else s.entries

/-- A successor mark: the leader tag of another car of the table, with the followed epoch + 1 (R33). (DEDUCED, log 40) -/
def State.successorMark (s : State) (m : MarkFields) : Bool :=
  match s.timer.followed with
  | some (_, ep) => m.epoch == ep + 1 && m.leader != s.ownTag && holdsTag s.knownEntries m.leader
  | none => false

/-- A mark of the followed leader with the followed epoch or the one above it (R33). -/
def State.followedMark (s : State) (m : MarkFields) : Bool :=
  match s.timer.followed with
  | some (t, ep) => t == m.leader && (m.epoch == ep || m.epoch == ep + 1)
  | none => false

/-- Whether a well-formed mark on an end is acceptable (R33). (DEDUCED, log 59) -/
def State.acceptable (s : State) (e : EndId) (m : MarkFields) : Bool :=
  match s.form.node with
  | .member => s.upstream == some e && (s.followedMark m || s.successorMark m)
  | .applicant =>
    match s.timer.followed with
    | some _ => s.followedMark m || s.successorMark m
    | none => holdsTag s.heardEntries m.leader
  | .seek =>
    match s.form.seek with
    | some k =>
      if k.locked then k.lockEnd == some e && (s.followedMark m || s.successorMark m)
      else
        (m.leader == k.principal && (match k.jointEnd with
          | some j => j == e
          | none => true))
        || s.successorMark m
    | none => false
  | .orphan => s.timer.followed == some (m.leader, m.epoch) || s.successorMark m
  | .lead | .listen | .detached => false

/-- Whether a well-formed mark on an end the cycle timer hears is alien (R41). -/
def State.alien (s : State) (m : MarkFields) : Bool :=
  match s.form.node with
  | .lead => true
  | .member | .orphan =>
    m.leader == s.ownTag || (s.timer.followed.map Prod.fst != some m.leader && !s.successorMark m)
  | .seek =>
    m.leader == s.ownTag || (s.form.seek.map SeekRecord.principal != some m.leader && !s.successorMark m)
  | .applicant | .listen | .detached => false

/-- Whether an accepted mark is an epoch advance: one above the epoch held, from the followed leader or a successor (R33). -/
def State.advances (s : State) (m : MarkFields) : Bool :=
  match s.timer.followed with
  | some (t, ep) => m.epoch == ep + 1 && (t == m.leader || s.successorMark m)
  | none => false

/-! ## What an accepted mark does to the formation unit -/

/-- The mark compared with the tables being gathered (R56), where it is no epoch advance. -/
def FormationUnit.compareMark (m : MarkFields) (f : FormationUnit) : FormationUnit :=
  let f1 := if m.procedure = .announce then f else f.dropPending
  if m.procedure = .arming || m.procedure = .armed then f1 else f1.dropArmed

/-- A MEMBER at an epoch advance of its followed leader (R59): the found table is installed, or it is UNSYNCED. -/
def State.memberAdvance (s : State) (m : MarkFields) : State :=
  match s.tableOf m.epoch m.leader with
  | some found => (s.install found.1).partedAs found s.armedJoint
  | none => s.gatherAnew m.epoch

/-- Pending table, armed tables and every assembly discarded (R140). -/
def State.discardGathered (s : State) : State :=
  ({ s with form := { s.form.dropArmed.dropPending with asmCurrent := none } } : State).withShadows s.form

/-- A MEMBER or ORPHAN at a successor mark, whose epoch is the one above the working epoch (R33, R63, R140). -/
def State.succeed (s : State) (m : MarkFields) : State :=
  let s0 : State := { s with form := { s.form with node := .member, fastPath := none } }
  let s1 := (if s.form.node = .orphan then s0.rewindWants else s0).forgetJoins
  let b := match s.form.armedA, s.form.armedB with
    | some x, some y =>
      if x.epoch == m.epoch && y.epoch == m.epoch && s.form.designatedB == some m.leader then
        (if holdsTag y.entries m.leader then some y else if holdsTag x.entries m.leader then some x else none)
      else none
    | _, _ => none
  match b with
  | some t =>
    if holdsTag t.entries s.ownTag && m.n == t.size then
      (s1.installOwn t).parted false t s.armedJoint
    else s1.discardGathered
  | none => s1.discardGathered

/-- The joint end of a former seeking part segregated (R7, R116, R117). -/
def State.segregateJoint (s : State) (k : SeekRecord) : State :=
  match k.jointEnd with
  | some e => s.mapEnd e EndUnit.segregate
  | none => s

/-- The notice RESUMED (R116 to R118). -/
def State.resumed (s : State) (k : SeekRecord) : State :=
  s.notify rankOutcome (.joinOutcome .resumed none k.jointEnd (some k.principal))

/-- A seeking part accepts a successor mark: MEMBER, UNSYNCED, the joint segregated (R117). One that led before it sought does
the same (R7, R33, DESIGN CHOICE, log 66), and so does one that is locked (DESIGN CHOICE, log 96). -/
def State.seekSucceed (s : State) (k : SeekRecord) : State :=
  let s1 : State := { s with form := { s.form.dropArmed.dropPending with
    node := .member, asmCurrent := none, seek := none, fastPath := none } }
  (((s1.withShadows s.form).rewindWants).segregateJoint k).resumed k

/-- A seeking part takes a table of the principal: MEMBER, or APPLICANT if the table does not hold it (R115). -/
def State.seekTake (s : State) (k : SeekRecord) (t : Table) : State :=
  if holdsTag t.entries s.ownTag then
    (s.becomeMember.rewindWants.installOwn t).notify rankOutcome (.joinOutcome .joined none none (some k.principal))
  else s.becomeApplicant t

/-- A locked seeking part at the principal's epoch advance (R115). -/
def State.seekAdvance (s : State) (k : SeekRecord) (m : MarkFields) : State :=
  match s.tableOf m.epoch k.principal with
  | some found =>
    let t := s.seekTake k found.1
    if holdsTag found.1.entries s.ownTag then t.partedAs found s.armedJoint else t
  | none =>
    let s1 := s.gatherAnew m.epoch
    { s1 with form := { s1.form with seek := some { k with awaitCurrent := true } } }

/-- The yield record after an accepted mark (R111). -/
def yieldOf (m : MarkFields) : Option YieldRecord :=
  if m.procedure = .yielding then some { principal := m.other.getD 0, cyclesLeft := m.countdown } else none

/-- Tables that complete in the cycle before are installed at the next cycle start: by an UNSYNCED member (R60), an
applicant (R127), a seeking part that waits for its CURRENT assembly (R115). -/
def State.lateInstall (s : State) : State :=
  match s.form.node, completeTable s.form.asmCurrent with
  | .member, some t =>
    if !s.synced && some t.epoch == s.timer.followed.map Prod.snd then s.install t else s
  | .applicant, some _ => s.applicantInstall
  | .seek, some t => match s.form.seek with
    | some k => if k.awaitCurrent && some t.epoch == s.timer.followed.map Prod.snd then s.seekTake k t else s
    | none => s
  | _, _ => s

/-- The formation unit at an accepted mark: `old` is the state before the mark was taken (R56, R59, R111, R115, R117,
R127, R140, R145). An ORPHAN that was UNSYNCED and hears its leader again is UNSYNCED in MEMBER (R60, DEDUCED, log 98).
(DEDUCED, log 41) -/
def State.formAtMark (old s : State) (e : EndId) (m : MarkFields) : State :=
  let plain : State := (({ s with form := s.form.compareMark m } : State).withShadows s.form).lateInstall
  match old.form.node with
  | .member =>
    if old.advances m then
      (if old.timer.followed.map Prod.fst = some m.leader then s.memberAdvance m else s.succeed m)
    else plain
  | .orphan =>
    if old.advances m then s.succeed m
    else ({ plain with form := { plain.form with node := .member } } : State).rewindWants
  | .applicant => if old.advances m then s.applicantAdvance m.leader m.epoch else plain
  | .seek =>
    match s.form.seek with
    | some k =>
      if m.leader = k.principal then
        let k' := { k with locked := true, lockEnd := some e }
        let s1 : State := { s with form := { s.form with seek := some k' } }
        if old.advances m && old.timer.followed.map Prod.fst == some m.leader then s1.seekAdvance k' m
        else (({ s1 with form := s1.form.compareMark m } : State).withShadows s1.form).lateInstall
      else s.seekSucceed k
    | none => s
  | .lead | .listen | .detached => s

/-! ## Accepting a mark (R33, R38) -/

/-- The cycle timer at an accepted mark (R33). -/
def CycleTimer.accept (now : Nat) (e : EndId) (m : MarkFields) (hop : Nat) (t : CycleTimer) : CycleTimer :=
  { t with
    lock := .locked, counter := 4 * hop, period := some m.period, index := m.index, round := m.round,
    latched := some m, followed := some (m.leader, m.epoch), reference := some now, refHop := hop,
    early := 0, earlyHold := false, earlySeen := false, missed := 0, kind := .marked,
    acceptEnd := some e, nextSlot := 0 }

/-- What follows at every follower cycle start once the tables stand: plan (R82, R141), applicant (R121). -/
def State.settleCycle (s : State) : State := s.replan.applicantStart

/-- The PHASE_JUMP notice of a relock: the mark's arrival minus the expected one (R38). -/
def State.phaseJump (s : State) (m : MarkFields) (hop : Nat) : State :=
  s.notify rankOther (.phaseJump m.leader { round := m.round, index := m.index, tick := 4 * hop }
    ((s.now : Int) - (s.coastDue : Int)))

/-- A mark is accepted (R33, R38): cycle start, tables, fast-path mark and yield record, cab, channels taken. At a round start
an applicant's heard table changes before the readings are assessed (R121, R127, DESIGN CHOICE, log 97). A relock armed before
the part came to ACQUIRING is an acquisition there, without PHASE_JUMP (R38, R40, DESIGN CHOICE, log 102). -/
def State.acceptMark (s : State) (e : EndId) (m : MarkFields) (hop : Nat) : State :=
  let relock := s.timer.early = 3 && (s.timer.lock = .locked || s.timer.lock = .flywheel)
  let s1 := if relock then s.phaseJump m hop else s
  let s2 : State := { s1 with timer := s1.timer.accept s1.now e m hop }
  let s3 : State := { s2.turnCycle with form := { s2.form with fastPath := none } }
  let s4 := State.formAtMark s s3 e m
  let s5 : State :=
    if s4.form.node = .member then { s4 with form := { s4.form with yieldRecord := yieldOf m } } else s4
  let s6 := s5.settleCycle
  let s7 := if s6.synced then s6.compareCab else s6
  s7.takeChannels.correct

/-! ## Judging a mark (R34 to R38, R40) -/

/-- An early mark (R36): ignored, counted unless the early hold stands. -/
def State.earlyMark (s : State) : State :=
  if s.timer.earlyHold then s
  else { s with timer := { s.timer with
    early := min 3 (s.timer.early + 1), earlyHold := true, earlySeen := true } }

/-- A well-formed mark on an end that the cycle timer hears (R33 to R41). A relock takes it wherever it falls; in
ACQUIRING and in IDLE (an applicant before its first) so does acquisition; else the window decides. (DEDUCED, log 44 and log 45 and log 46)
Whether a mark is acceptable is asked before whether it is alien, also of one under the part's own tag (R33, R41, DESIGN CHOICE,
log 103). -/
def State.judgeMark (s : State) (e : EndId) (m : MarkFields) (hop : Nat) : State :=
  if s.acceptable e m then
    match s.timer.lock with
    | .locked | .flywheel =>
      if s.timer.early = 3 then s.acceptMark e m hop
      else if s.now < s.windowOpen then s.earlyMark
      else if s.now ≤ s.windowClose then s.acceptMark e m hop
      else s
    | .acquiring | .idle => s.acceptMark e m hop
    | .generating => s
  else if s.alien m then s.alienMark
  else s

/-! ## Flywheel starts (R37, R39, R111) -/

/-- The cycle timer at a flywheel start (R36, R37). -/
def CycleTimer.flywheel (w : Nat) (t : CycleTimer) : CycleTimer :=
  { t.nextCycle with
    reference := t.reference.map fun r => r + t.period.getD 0
    counter := 4 * t.refHop + w
    lock := .flywheel, kind := .flywheel, nextSlot := 0, acceptEnd := none,
    latched := t.latched.map fun m => { m with index := t.nextCycle.index, round := t.nextCycle.round }
    early := if t.earlySeen || t.early = 3 then t.early else 0
    earlyHold := false, earlySeen := false
    missed := if t.earlySeen then t.missed else min 255 (t.missed + 1) }

/-- The missed count that the next flywheel start brings. -/
def State.nextMissed (s : State) : Nat := if s.timer.earlySeen then s.timer.missed else min 255 (s.timer.missed + 1)

/-- The yield record at a cycle start: cycles left fall by one, to no less than 0 (R111). -/
def YieldRecord.pass (y : YieldRecord) : YieldRecord := { y with cyclesLeft := y.cyclesLeft - 1 }

/-- The follower cycle starts, one for each row of the table. -/
inductive FollowStart where
  | flywheel
  | orphanEntry
  | yieldSeek
  | coasting
  | succession
  deriving DecidableEq, Repr

/-- An orphan's rank: the entries at lower positions than its own, the followed leader's not counted (R146). -/
def State.rank (s : State) : Nat :=
  (s.entries.filter fun en =>
    decide (en.position < s.ownPosition) && s.timer.followed.map Prod.fst != some en.tag).length

/-- The next start of a follower without a mark. (DEDUCED, log 53) -/
def State.followStart (s : State) : Option FollowStart :=
  match s.form.node, s.timer.lock with
  | .member, .locked | .member, .flywheel =>
    match s.form.yieldRecord with
    | some y =>
      if y.cyclesLeft ≤ 1 || 3 ≤ s.nextMissed then some .yieldSeek else some .flywheel
    | none => if 3 ≤ s.nextMissed then some .orphanEntry else some .flywheel
  | .applicant, .locked | .applicant, .flywheel | .seek, .locked | .seek, .flywheel => some .flywheel
  | .orphan, .acquiring =>
    if 8 + 4 * s.rank ≤ min 255 (s.timer.missed + 1) then some .succession else some .coasting
  | .member, .acquiring | .applicant, .acquiring | .seek, .acquiring => some .coasting
  | _, _ => none

/-- A flywheel start (R37): timer, yield record, channel unit, tables; a part in APPLICANT or SEEK whose missed count
reaches 3 is in ACQUIRING, and a seeking one no longer locked (R39, R114). -/
def State.flywheelStart (s : State) : State :=
  let t := s.timer.flywheel s.tolerance
  let lost := decide (3 ≤ t.missed) && (s.form.node = .applicant || s.form.node = .seek)
  let s1 : State := { s with
    timer := if lost then { t with lock := .acquiring } else t
    form := { s.form with
      yieldRecord := s.form.yieldRecord.map YieldRecord.pass
      seek := if lost then s.form.seek.map fun k => { k with locked := false } else s.form.seek } }
  s1.turnCycle.lateInstall.settleCycle.correct

/-- ORPHAN_ENTRY: the third missed mark of a MEMBER (R39, R42), whose detection returns to QUIET (R15); with the fast-path
mark set it leads the remnant (R144). -/
def State.enterOrphan (s : State) : State :=
  let s1 := s.flywheelStart
  if s1.form.node = .member then
    let s2 : State := { s1 with
      timer := { s1.timer with lock := .acquiring, early := 0 }
      form := { s1.form with node := .orphan } }
    let s3 := (State.restDetection s1 s2).rewindWants
    match s3.form.fastPath with
    | some cap => s3.fastLead cap
    | none => s3
  else s1

/-- YIELD_SEEK_ENTRY: a MEMBER with a yield record enters SEEK at a flywheel start (R42, R111, R113). (DEDUCED, log 16) -/
def State.yieldMember (s : State) : State :=
  match s.form.yieldRecord, s.timer.followed with
  | some y, some (t, ep) =>
    let s1 := s.flywheelStart
    let seek : SeekRecord :=
      { principal := y.principal, jointEnd := s.jointEnd, locked := false, lockEnd := none, oldLeader := t,
        oldEpoch := ep, oldPeriod := s.period, formerLead := false,
        deadline := (s1.timer.reference.getD 0) + Config.seekPeriods * s.period, awaitCurrent := false,
        lastOwnMark := none }
    if s1.form.node = .member then
      ({ s1 with
          timer := { s1.timer with lock := .acquiring, early := 0, missed := 1 }
          form := { s1.form with node := .seek, seek := some seek, yieldRecord := none, fastPath := none } } :
        State).rewindWants
    else s1
  | _, _ => s

/-! ## Coasting starts (R40, R146) -/

/-- The cycle timer at a coasting start (R40). The latched mark fields but cycle index and round count are kept as at a
flywheel start (R37, DESIGN CHOICE, log 68). -/
def CycleTimer.coast (t : CycleTimer) : CycleTimer :=
  { t.nextCycle with
    reference := t.reference.map fun r => r + t.period.getD 0
    counter := 4 * t.refHop
    latched := t.latched.map fun m => { m with index := t.nextCycle.index, round := t.nextCycle.round }
    kind := .flywheel, nextSlot := 0, acceptEnd := none, missed := min 255 (t.missed + 1) }

/-- A coasting start (R40). -/
def State.coast (s : State) : State :=
  ({ s with timer := s.timer.coast } : State).turnCycle.lateInstall.settleCycle.correct

/-- SUCCESSION: the orphan leads the current table less the lost leader's entry (R146). -/
def State.takeSuccession (s : State) : State :=
  let s1 := s.coast
  let lost := match s1.timer.followed with
    | some (t, _) => positionOf s1.entries t
    | none => 0
  let ens := if lost = 0 then s1.entries else removePosition s1.entries lost
  s1.enterLead
    { table := { epoch := s1.successorEpoch, entries := grantKept s1.settings.period s1.ownTag ens },
      by_ := .succession }
    s1.timer.latched

/-! ## Seek deadlines (R116, R117) -/

/-- SEEK_DEADLINE_RESUME: a former leader leads its own table again (R116). (DEDUCED, log 17) -/
def State.resumeLead (s : State) (k : SeekRecord) : State :=
  let led : Table := { epoch := k.oldEpoch + 1, entries := grantKept s.settings.period s.ownTag s.entries }
  ((((s.enterLead { table := led, by_ := .resume } k.lastOwnMark).steady.segregateJoint k).resumed k).formationNotice led
    s.ownTag)

/-- SEEK_DEADLINE_ORPHAN: a former member returns to its old leader and epoch in ACQUIRING, its period kept (R42, R117). What it
has gathered from the principal is kept (DESIGN CHOICE, log 29). -/
def State.orphanAgain (s : State) (k : SeekRecord) : State :=
  let s1 : State := { s with
    timer := { s.timer with
      lock := .acquiring, followed := some (k.oldLeader, k.oldEpoch), reference := some s.now, missed := 0,
      early := 0, earlyHold := false, earlySeen := false }
    form := { s.form with node := .orphan, seek := none } }
  (s1.rewindWants.segregateJoint k).resumed k

/-! ## Meanings -/

/-- A cycle start of a follower without a mark, at an instant of its own. -/
def followerRow (s : State) (row : FollowStart) (due : State → Nat) (f : State → State) : Result :=
  whenPowered s fun s =>
    if s.followStart = some row && s.timer.reference.isSome then
      let t := s.advanceTo (due s)
      finish t (f t)
    else .next s

/-- FLYWHEEL_START (R37). -/
def execFlywheelStart (s : State) : Result := followerRow s .flywheel State.windowClose State.flywheelStart

/-- ORPHAN_ENTRY (R39). -/
def execOrphanEntry (s : State) : Result := followerRow s .orphanEntry State.windowClose State.enterOrphan

/-- YIELD_SEEK_ENTRY (R111). -/
def execYieldSeekEntry (s : State) : Result := followerRow s .yieldSeek State.windowClose State.yieldMember

/-- COASTING_START (R40). -/
def execCoastingStart (s : State) : Result := followerRow s .coasting State.coastDue State.coast

/-- SUCCESSION (R146). -/
def execSuccession (s : State) : Result := followerRow s .succession State.coastDue State.takeSuccession

/-- WINDOW_OPENS: the early hold is cleared (R36). -/
def execWindowOpens (s : State) : Result :=
  whenPowered s fun s =>
    if (s.timer.lock = .locked || s.timer.lock = .flywheel) && s.timer.reference.isSome then
      let t := s.advanceTo s.windowOpen
      finish t { t with timer := { t.timer with earlyHold := false } }
    else .next s

/-- SEEK_DEADLINE_RESUME (R116). -/
def execSeekDeadlineResume (s : State) : Result :=
  whenPowered s fun s =>
    match s.form.seek with
    | some k =>
      if s.form.node = .seek && k.formerLead then
        let t := s.advanceTo k.deadline
        finish t (t.resumeLead k)
      else .next s
    | none => .next s

/-- SEEK_DEADLINE_ORPHAN (R117). -/
def execSeekDeadlineOrphan (s : State) : Result :=
  whenPowered s fun s =>
    match s.form.seek with
    | some k =>
      if s.form.node = .seek && !k.formerLead then
        let t := s.advanceTo k.deadline
        finish t (t.orphanAgain k)
      else .next s
    | none => .next s

end Sys2Proof.Machine
end

