-- ==== Sys2Proof/Machine/Operands.lean ====
section
/-! DEFINITION. What the octets of the car link spell: frames, and the operands in a request's body
(R149, R168, R174, R177, R186, 11_record_layouts). -/

namespace Sys2Proof.Machine

open Sys2Proof

/-! ## Frames (R174, R188) -/

/-- What the octets behind a start octet come to. -/
inductive FrameRead where
  | unfinished
  | dropped
  | good (f : Frame) (rest : List Octet)
  deriving DecidableEq, Repr

/-- The octets behind a start octet: length, kind, tag, body and check (11, The car link frame). -/
def readFrame (os : List Octet) : FrameRead :=
  match os with
  | [] => .unfinished
  | len :: _ =>
    let k := len.toNat
    if 200 < k then .dropped
    else if os.length < k + 6 then .unfinished
    else if fieldAt os (k + 4) 2 = (crc16 (os.take (k + 4))).toNat then
      .good { kind := octetAt os 1, tag := BitVec.ofNat 16 (fieldAt os 2 2), body := (os.drop 4).take k }
        (os.drop (k + 6))
    else .dropped

/-- What a run of the receive path over some octets gives: the good frames in order, how many were dropped, and the
octets of a frame still unfinished. -/
structure Scan where
  good : List Frame
  drops : Nat
  rest : List Octet
  deriving DecidableEq, Repr

def Scan.nothing : Scan := { good := [], drops := 0, rest := [] }
def Scan.addGood (f : Frame) (r : Scan) : Scan := { r with good := f :: r.good }
def Scan.addDrop (r : Scan) : Scan := { r with drops := r.drops + 1 }

/-- The receive path over octets (R174). After a drop it hunts on from the octet behind the dropped frame's start
octet. With `silent` the line has been silent for more than 2,000 ticks after the last octet, which drops an unfinished
frame too. `fuel` is at least the number of octets. -/
def scan (silent : Bool) : Nat → List Octet → Scan
  | 0, _ => Scan.nothing
  | _ + 1, [] => Scan.nothing
  | fuel + 1, o :: os =>
    if o = startOctet then
      match readFrame os with
      | .unfinished => if silent then (scan silent fuel os).addDrop else { good := [], drops := 0, rest := o :: os }
      | .dropped => (scan silent fuel os).addDrop
      | .good f rest => (scan silent fuel rest).addGood f
    else scan silent fuel os

/-- The receive path over some octets. -/
def scanAll (silent : Bool) (os : List Octet) : Scan := scan silent os.length os

/-- One run of the receive path after another. -/
def Scan.andThen (a b : Scan) : Scan := { good := a.good ++ b.good, drops := a.drops + b.drops, rest := b.rest }

/-- The receive path over what it holds and the octets that come at the instant `at_`: more than 2,000 ticks after the last
octet the frame it holds unfinished is dropped first. `silent` tells that such a silence follows them too (R174). -/
def State.scanLink (s : State) (at_ : Nat) (silent : Bool) (os : List Octet) : Scan :=
  if s.link.lastOctet + Config.frameSilenceTicks < at_ then (scanAll true s.link.rx).andThen (scanAll silent os)
  else scanAll silent (s.link.rx ++ os)

/-- The instant of the last octet when the octets `os` come at the instant `at_`; none may come. -/
def State.lastOctetAt (s : State) (at_ : Nat) (os : List Octet) : Nat := if os = [] then s.link.lastOctet else at_

/-- A good frame joins the holding, or is dropped with INPUT_OVERRUN when 4 are held (R175). -/
def State.holdFrame (s : State) (f : Frame) : State :=
  if s.link.holding.length < Config.holdingSize then
    { s with link := { s.link with holding := s.link.holding ++ [f] } }
  else s.setFlags fun fl => { fl with inputOverrun := true }

/-- The receive path after a scan, its good frames handed to the holding; the last octet came at the instant `last`. -/
def State.afterScan (s : State) (last : Nat) (r : Scan) : State :=
  r.good.foldl State.holdFrame { s with link := { s.link with rx := r.rest, lastOctet := last } }

/-! ## Request kinds (11, The car link frame) -/

def reqIdentify : Octet := 1
def reqStatus : Octet := 2
def reqStart : Octet := 3
def reqStop : Octet := 4
def reqRestart : Octet := 5
def reqSetEndMode : Octet := 6
def reqPublish : Octet := 7
def reqReadImage : Octet := 8
def reqReadTable : Octet := 9
def reqWatch : Octet := 10
def reqUnwatch : Octet := 11
def reqSplit : Octet := 12
def reqSplitCancel : Octet := 13
def reqCabClaim : Octet := 14
def reqCabRelease : Octet := 15
def reqHeading : Octet := 16
def reqSettingsRead : Octet := 17
def reqSettingsWrite : Octet := 18
def reqSettingsProtect : Octet := 19

/-- Whether a kind is a request kind (R174). -/
def isRequest (k : Octet) : Bool := decide (1 ≤ k.toNat) && decide (k.toNat ≤ 19)

/-- A reply's kind (11): its request's kind plus 128; a free value where that is no octet (DESIGN CHOICE, log 36). -/
def replyKind (k : Octet) : Octet := if k.toNat < 128 then k + 128 else Config.replyKindAbove k

/-! ## Bodies -/

/-- An end code, E1 1 and E2 2. -/
def endOperand (o : Octet) : Option EndId :=
  if o = 1 then some .e1 else if o = 2 then some .e2 else none

/-- An area code. -/
def areaOperand (o : Octet) : Option AreaId :=
  if o = 0 then some .identity else if o = 1 then some .service else none

/-- A flag octet; none if it holds neither 0 nor 1 (R186). -/
def flagOperand (o : Octet) : Option Bool :=
  if o = 0 then some false else if o = 1 then some true else none

/-- SET_END_MODE: end, mode. -/
def parseEndMode (b : List Octet) : Option (EndId × EndMode) :=
  match b with
  | [e, m] =>
    match endOperand e, flagOperand m with
    | some e, some iso => some (e, if iso then .isolated else .line)
    | _, _ => none
  | _ => none

/-- PUBLISH: channel index, payload of at most 32 octets (R149). -/
def parsePublish (b : List Octet) : Option (Nat × List Octet) :=
  match b with
  | ch :: payload => if payload.length ≤ 32 then some (ch.toNat, payload) else none
  | [] => none

/-- How READ_IMAGE names a cell. -/
inductive CellName where
  | byTag (t : Tag) (ch : Nat)
  | byPosition (p ch : Nat)
  deriving DecidableEq, Repr

/-- READ_IMAGE: selector, tag (zeros by position), position (0 by tag), channel index. (DEDUCED, log 31) -/
def parseReadImage (b : List Octet) : Option CellName :=
  if b.length = 9 then
    let t := fieldAt b 1 6
    let p := (octetAt b 7).toNat
    let ch := (octetAt b 8).toNat
    if octetAt b 0 = 0 then (if p = 0 then some (.byTag (BitVec.ofNat 48 t) ch) else none)
    else if octetAt b 0 = 1 then (if t = 0 then some (.byPosition p ch) else none)
    else none
  else none

/-- READ_TABLE: first index, count. -/
def parseReadTable (b : List Octet) : Option (Nat × Nat) :=
  match b with
  | [i, c] => some (i.toNat, c.toNat)
  | _ => none

/-- WATCH and UNWATCH: tag, channel index. -/
def parseWatch (b : List Octet) : Option (Tag × Nat) :=
  if b.length = 7 then some (BitVec.ofNat 48 (fieldAt b 0 6), (octetAt b 6).toNat) else none

/-- SPLIT and SPLIT_CANCEL: joint p. -/
def parseJoint (b : List Octet) : Option Nat :=
  match b with
  | [p] => some p.toNat
  | _ => none

/-- HEADING: direction. -/
def parseHeading (b : List Octet) : Option Direction :=
  match b with
  | [d] => Direction.ofCode d.toNat
  | _ => none

/-- A body of no octets. -/
def parseNothing (b : List Octet) : Option Unit := if b = [] then some () else none

/-- SETTINGS_READ: area, and whether the source is SNAPSHOT. -/
def parseSettingsRead (b : List Octet) : Option (AreaId × Bool) :=
  match b with
  | [a, src] =>
    match areaOperand a, flagOperand src with
    | some a, some sn => some (a, sn)
    | _, _ => none
  | _ => none

/-- SETTINGS_PROTECT: area, on. -/
def parseSettingsProtect (b : List Octet) : Option (AreaId × Bool) :=
  match b with
  | [a, on] =>
    match areaOperand a, flagOperand on with
    | some a, some on => some (a, on)
    | _, _ => none
  | _ => none

/-! ## SETTINGS_WRITE (R167, R168, 11) -/

/-- The value width of a field code, and its area; the channel list has its width in its count octet. -/
def fieldWidth (code : Nat) (rest : List Octet) : Option (AreaId × Nat) :=
  match code with
  | 1 => some (.identity, 6)
  | 2 => some (.identity, 4)
  | 3 => some (.identity, 1)
  | 4 => some (.identity, 1)
  | 5 => some (.identity, 1)
  | 16 => some (.service, 2)
  | 17 => some (.service, 1)
  | 18 => some (.service, 1)
  | 19 => some (.service, 1)
  | 20 => some (.service, 1)
  | 21 => some (.service, 2)
  | 22 => some (.service, 1)
  | 23 => some (.service, 1)
  | 24 => match rest with
    | k :: _ => some (.service, 1 + k.toNat)
    | [] => none
  | _ => none

/-- A named field: its code and its value octets. -/
abbrev NamedField := Nat × List Octet

/-- The named fields of a body behind its area octet; none if a code is unknown, of the other area, named twice, or if
the body ends inside a value. `fuel` is at least the number of octets. -/
def splitFields (area : AreaId) : Nat → List Nat → List Octet → Option (List NamedField)
  | _, _, [] => some []
  | 0, _, _ :: _ => none
  | fuel + 1, seen, c :: rest =>
    match fieldWidth c.toNat rest with
    | some (a, w) =>
      if a = area && !seen.contains c.toNat && w ≤ rest.length then
        (splitFields area fuel (c.toNat :: seen) (rest.drop w)).map fun fs => (c.toNat, rest.take w) :: fs
      else none
    | none => none

/-- The value octets of a field, if it is named. -/
def fieldOf (fs : List NamedField) (code : Nat) : Option (List Octet) :=
  (fs.find? fun f => f.1 == code).map Prod.snd

/-- A numeric field, if it is named. -/
def numberOf (fs : List NamedField) (code : Nat) : Option Nat := (fieldOf fs code).map octetsNat

/-- Whether every flag that is named holds 0 or 1 (R186). -/
def flagsDefined (fs : List NamedField) : Bool :=
  [3, 4, 5].all fun c => match numberOf fs c with
    | some v => decide (v ≤ 1)
    | none => true

/-- SETTINGS_WRITE: the area and the fields it names. -/
def parseSettingsWrite (b : List Octet) : Option (AreaId × List NamedField) :=
  match b with
  | a :: rest =>
    match areaOperand a with
    | some area =>
      match splitFields area rest.length [] rest with
      | some fs => if flagsDefined fs then some (area, fs) else none
      | none => none
    | none => none
  | [] => none

/-- A number held between two bounds (R168). -/
def clamp (lo hi v : Nat) : Nat := max lo (min hi v)

/-- The cycle period: rounded down to a multiple of 100, then clamped (R168). -/
def clampPeriod (v : Nat) : Nat := clamp 2000 20000 (v / 100 * 100)

/-- The sample interval: the largest member not above it, or 250 (R168). -/
def clampInterval (v : Nat) : Nat :=
  if 4000 ≤ v then 4000 else if 2000 ≤ v then 2000 else if 1000 ≤ v then 1000 else 250

/-- A channel octet of the stored list; the granted-rate bits are fill (R168, 11). -/
def channelSetting (o : Octet) : Option ChannelSetting :=
  match ChannelClass.ofCode (o.toNat % 4), Rate.ofRequestedCode (o.toNat / 4 % 4) with
  | some c, some r => some { cls := c, requested := r, sided := o.getLsbD 7 }
  | _, _ => none

/-- A channel list that is named: none if it fails the argument test (R168). (DEDUCED, log 34) -/
def channelSettings (v : List Octet) : Option (List ChannelSetting) :=
  if (v.drop 1).length ≤ 8 then readAll channelSetting (v.drop 1) else none

/-- A numeric setting written, or kept. -/
def written (fs : List NamedField) (code : Nat) (f : Nat → Nat) (kept : Nat) : Nat :=
  match numberOf fs code with
  | some v => f v
  | none => kept

/-- Whether the value written differs from the value stored (R167). -/
def marker (fs : List NamedField) (code : Nat) (f : Nat → Nat) : Bool :=
  match numberOf fs code with
  | some v => f v != v
  | none => false

/-- The SERVICE values a write will leave, from the values the area reads as; none if the channel list fails its test
(R167, R168). -/
def writeService (old : Service) (fs : List NamedField) : Option Service :=
  let chs : Option (List ChannelSetting) :=
    match fieldOf fs 24 with
    | some v => channelSettings v
    | none => some old.channels
  chs.map fun chs =>
    { period := written fs 16 clampPeriod old.period
      tolerance := written fs 17 (clamp 2 50) old.tolerance
      silenceLimit := written fs 18 (clamp 2 16) old.silenceLimit
      formationLimit := written fs 19 (clamp 2 16) old.formationLimit
      staleLimit := written fs 20 (clamp 1 15) old.staleLimit
      sampleInterval := written fs 21 clampInterval old.sampleInterval
      qualifyCount := written fs 22 (clamp 2 15) old.qualifyCount
      armedTimeout := written fs 23 (clamp 10 250) old.armedTimeout
      channels := chs }

/-- The clamped markers of a write (R167). -/
def serviceMarkers (fs : List NamedField) : ClampedMarkers :=
  { period := marker fs 16 clampPeriod
    tolerance := marker fs 17 (clamp 2 50)
    silenceLimit := marker fs 18 (clamp 2 16)
    formationLimit := marker fs 19 (clamp 2 16)
    staleLimit := marker fs 20 (clamp 1 15)
    sampleInterval := marker fs 21 clampInterval
    qualifyCount := marker fs 22 (clamp 2 15)
    armedTimeout := marker fs 23 (clamp 10 250) }

/-- The IDENTITY values a write will leave; none if it fails an argument test: a car tag of all zeros or all ones, or a
BAD area of which a field is not named (R169). -/
def writeIdentity (old : Option Identity) (fs : List NamedField) : Option Identity :=
  let tag := (numberOf fs 1).map (BitVec.ofNat 48)
  let named := tag.all validTag
  match old with
  | some o =>
    if named then
      some { tag := tag.getD o.tag
             unit := ((numberOf fs 2).map (BitVec.ofNat 32)).getD o.unit
             fixed1 := ((numberOf fs 3).map (· == 1)).getD o.fixed1
             fixed2 := ((numberOf fs 4).map (· == 1)).getD o.fixed2
             cab := ((numberOf fs 5).map (· == 1)).getD o.cab }
    else none
  | none =>
    match tag, numberOf fs 2, numberOf fs 3, numberOf fs 4, numberOf fs 5 with
    | some t, some u, some f1, some f2, some c =>
      if named then
        some { tag := t, unit := BitVec.ofNat 32 u, fixed1 := f1 == 1, fixed2 := f2 == 1, cab := c == 1 }
      else none
    | _, _, _, _, _ => none

/-! ## Serving a held frame (R175, R177, R181) -/

/-- The frame a request of a kind serves: the oldest held, if it is of that kind and the part serves at all. -/
def State.frameFor (s : State) (isKind : Octet → Bool) : Option Frame :=
  match s.link.holding with
  | f :: _ =>
    if s.powered && !s.link.restarting && s.link.reply.isNone && isKind f.kind then some f else none
  | [] => none

/-- A reply is made: it echoes the tag (R175, R177). -/
def State.reply (s : State) (f : Frame) (o : Outcome) (b : ReplyBody) : State :=
  { s with link := { s.link with reply := some { kind := replyKind f.kind, tag := f.tag, outcome := o, body := b } } }

/-- A request of a kind is served: MALFORMED is judged before any test of the rule that owns it (R177). -/
def serve {α : Type} (kind : Octet) (parse : List Octet → Option α) (s : State)
    (judge : α → Frame → State → State) : Result :=
  match s.frameFor (· == kind) with
  | none => .next s
  | some f =>
    match parse f.body with
    | none => finish s (s.reply f .malformed .empty)
    | some a => finish s (judge a f s)

end Sys2Proof.Machine
end

