-- ==== Sys2Proof/Machine/LinkEvents.lean ====
section
/-! DEFINITION. The car link's receive and transmit paths (R174 to R176). -/

namespace Sys2Proof.Machine

open Sys2Proof

/-! ## The receive and the transmit path -/

/-- FRAME_RECEIVED: octets of the car link, with at least one good frame among them (R174, R175). (DEDUCED, log 56) -/
def execFrameReceived (after : Nat) (octets : List Octet) (s : State) : Result :=
  whenPowered s fun s =>
    let r := s.scanLink (s.now + after) false octets
    if r.good = [] then .next s
    else
      let t := s.advance after
      finish t (t.afterScan (s.lastOctetAt t.now octets) r)

/-- FRAME_TIMEOUT: octets of the car link that leave a frame unfinished, or none, then more than 2,000 ticks without one: the
frame is dropped 2,001 ticks after the last octet (R174). (DEDUCED, log 57) -/
def execFrameTimeout (after : Nat) (octets : List Octet) (s : State) : Result :=
  whenPowered s fun s =>
    let last := s.lastOctetAt (s.now + after) octets
    if (s.scanLink last false octets).rest = [] then .next s
    else
      let t := s.advanceTo (last + (Config.frameSilenceTicks + 1))
      finish t (t.afterScan last (s.scanLink last true octets))

/-- FRAME_DROPPED: octets of the car link by which the receive path drops at least one frame (R174). (DEDUCED, log 56) -/
def execFrameDropped (after : Nat) (octets : List Octet) (s : State) : Result :=
  whenPowered s fun s =>
    let r := s.scanLink (s.now + after) false octets
    if r.drops = 0 then .next s
    else
      let t := s.advance after
      finish t (t.afterScan (s.lastOctetAt t.now octets) r)

/-- TRANSMIT_FRAME_END: the frame being sent ends, and the next begins (R175, R176). -/
def execTransmitFrameEnd (after : Nat) (s : State) : Result :=
  whenPowered s fun s =>
    if s.link.tx = .idle then .next s
    else
      let t := s.advance after
      finish t { t with link := { t.link with tx := .idle, line := [] } }

end Sys2Proof.Machine
end

