-- ==== Sys2Proof/Machine/PowerStore.lean ====
section
/-! DEFINITION. Power, the integrity check, the deferred restart and the end of a store operation (R164, R165, R170, R173,
R181, R185). -/

namespace Sys2Proof.Machine

open Sys2Proof

/-! ## Reading the areas (R164) -/

/-- The IDENTITY values as they read: none while the area is BAD. -/
def Store.readIdentity (st : Store) : Option Identity := if st.identity.good then some st.identity.contents else none

/-- The SERVICE values as they read: the defaults while the area is BAD. -/
def Store.readService (st : Store) : Service := if st.service.good then st.service.contents else Service.defaults

/-- The protect flag of an area as it reads: clear while the area is BAD. -/
def Store.readProtect (st : Store) : AreaId → Bool
  | .identity => st.identity.good && st.identity.protect
  | .service => st.service.good && st.service.protect

/-! ## The check and the operation (R164, R165, R170) -/

/-- The area a store operation is on. -/
def StoreOp.area (op : StoreOp) : AreaId :=
  match op.contents with
  | .identity _ _ => .identity
  | .service _ _ => .service

/-- The store as the integrity check finds it, without operation and snapshot (R164, R173). -/
def Store.checked (st : Store) : Store :=
  { identity := { st.identity with good := st.identity.intact }
    service := { st.service with good := st.service.intact }
    op := none, snapshot := none }

/-- Power is lost over an operation in progress: its area no longer agrees with its check (R165). -/
def Store.interrupted (st : Store) : Store :=
  match st.op.map StoreOp.area with
  | some .identity => { st with identity := { st.identity with intact := false }, op := none }
  | some .service => { st with service := { st.service with intact := false }, op := none }
  | none => st

/-- The operation ends: its contents are the area's, the check is made anew, the area is GOOD (R170). -/
def Store.completed (op : StoreOp) (st : Store) : Store :=
  match op.contents with
  | .identity c p => { st with identity := { contents := c, protect := p, intact := true, good := true }, op := none }
  | .service c p => { st with service := { contents := c, protect := p, intact := true, good := true }, op := none }

/-! ## Meanings -/

/-- POWER_ON: the store is checked, every block takes its power-on values (R164, R185). Power applied to a powered part
stands for a short loss of it (DESIGN CHOICE, log 1). (DESIGN CHOICE, log 58) -/
def execPowerOn (s : State) : Result :=
  .next (State.powerOnValues true s.now s.store.interrupted.checked s.pending)

/-- POWER_LOSS: everything volatile is gone, an operation in progress spoils its area (R165). -/
def execPowerLoss (after : Nat) (s : State) : Result :=
  whenPowered s fun s =>
    .next (State.powerOnValues false (s.advance after).now s.store.interrupted.checked s.pending)

/-- Whether a served RESTART can take effect: its reply has been sent whole and no store operation is in progress
(R181). -/
def State.restartDue (s : State) : Bool :=
  s.link.restarting && s.link.reply.isNone && s.link.tx == .idle && s.store.op.isNone

/-- RESTART_TAKES_EFFECT: the check of R164, and every block at its power-on values (R181). -/
def execRestartTakesEffect (after : Nat) (s : State) : Result :=
  whenPowered s fun s =>
    if s.restartDue then .next (State.powerOnValues true (s.advance after).now s.store.checked s.pending)
    else .next s

/-- STORE_OPERATION_END: within 30,000 ticks of its begin (R165, R170). (DESIGN CHOICE, log 5) -/
def execStoreOperationEnd (after : Nat) (s : State) : Result :=
  whenPowered s fun s =>
    match s.store.op with
    | some op =>
      let t := s.advanceTo (min (s.now + after) (op.begun + Config.storeOpTicks))
      finish t (({ t with store := t.store.completed op } : State).notify rankOther
        (.storeDone op.area op.kind .done))
    | none => .next s

end Sys2Proof.Machine
end

