-- ==== Sys2Proof/Machine/Receive.lean ====
section
/-! DEFINITION. Records arriving at an end: where they go and what each kind does (R8 to R12, R14, R25, R41, R45, R54,
R55, R89, R90, R120, R123, R124, R126, R141, R153). -/

namespace Sys2Proof.Machine

open Sys2Proof

/-! ## Where a record goes (R8, R9) -/

/-- What becomes of a record on an end: ignored (ISOLATED, SEGREGATED), passed by the bypass, handed to its block as on
an inner end, or given to the join detector. -/
inductive Path where
  | ignored
  | bypass
  | inward
  | outside
  deriving DecidableEq, Repr

/-- The path of a record that arrives on an end (R7, R8, R9). -/
def State.path (s : State) (e : EndId) : Path :=
  match s.condition e with
  | .isolated | .segregated => .ignored
  | .bypass => .bypass
  | .active =>
    if (s.form.node = .lead || s.form.node = .member) && s.outer e then .outside else .inward

/-- A petition record with source position 0 that arrives in the applicant cell of the current table (R9). -/
def State.fromApplicant (s : State) (os : List Octet) : Bool :=
  octetAt os 0 == kindPetition && petitionSource os == 0
    && s.arrivalCell.isSome && s.arrivalCell == applicantCell s.n

/-- The path of a record: one from an applicant is handled as on an inner end (R9). -/
def State.pathOf (s : State) (e : EndId) (os : List Octet) : Path :=
  if s.path e = .outside && s.fromApplicant os then .inward else s.path e

/-- Whether the slot in which the applicant's own ENROLL is being sent is the arrival cell: what arrives then is not
passed on (R123). -/
def State.enrolling (s : State) : Bool :=
  match s.form.applicant with
  | some a => a.enrollSlot.isSome && a.enrollSlot == s.arrivalCell.map Prod.fst
  | none => false

/-- A copy sent on the opposite end, where the path relays at all; the record's first octet comes at the instant `first`
(R6, R8, R10). -/
def State.passOn (s : State) (e : EndId) (p : Path) (first length : Nat) (copy : List Octet) : State :=
  match p with
  | .ignored | .outside => s
  | .bypass =>
    if (s.endUnit e.other).mode = .isolated || s.enrolling then s else s.sendRelayed e.other first length copy
  | .inward => if s.condition e.other = .active then s.sendRelayed e.other first length copy else s

/-- The line of an end carries so many octets from now on (R3). -/
def State.hear (s : State) (e : EndId) (length : Nat) : State :=
  if (s.endUnit e).mode = .isolated then s else s.mapEnd e (EndUnit.hears length)

/-- The passive path of an unpowered part: what arrives leaves at the other end unchanged, its check not examined (R8;
its delay is a free value less than the relay delay, DESIGN CHOICE, log 38). -/
def State.passive (after : Nat) (e : EndId) (os : List Octet) (s : State) : State :=
  (s.advance after).mapEnd e.other fun u =>
    { u with sending := some { record := { octets := os, heard := some (s.now + after, s.now + after + os.length) },
                               ends := s.now + after + Config.passiveDelay (s.now + after) % Config.relayTicks + os.length },
             waiting := none, coming := none }

/-- A record of a kind arrives on an end: it is relayed where the path relays, and handed on along the path (DESIGN CHOICE,
log 47), in BYPASS also where the other end is ISOLATED and the copy goes nowhere (R8, DESIGN CHOICE, log 64). -/
def receive (after : Nat) (e : EndId) (kind : Octet) (os : List Octet) (s : State)
    (hand : Path → State → State) : Result :=
  if !goodRecordOf kind os then .next s
  else if !s.powered then .next (s.passive after e os)
  else
    let t := (s.advance after).hear e os.length
    let p := t.pathOf e os
    finish t (hand p (t.passOn e p t.now os.length (relayCopy os)))

/-! ## Marks -/

/-- A mark handed on (R9, R32, R33, R45, R120). One that is not well-formed gives no reading of the adjacent foreign car
(R18, R32, DESIGN CHOICE, log 109). -/
def State.handMark (s : State) (e : EndId) (os : List Octet) (p : Path) : State :=
  let hop := recordHop os
  let side := recordSide os
  match p, decodeMark os with
  | .ignored, _ => s
  | .bypass, none => if s.form.node = .detached then s else s.lineError e
  | .bypass, some m =>
    match s.form.node with
    | .listen => s.listenTo m
    | .applicant =>
      let s1 := s.judgeMark e m hop
      if s1.form.node = .applicant then s1.surveyMark e m hop side else s1
    | _ => s
  | .inward, none => s.lineError e
  | .inward, some m => s.judgeMark e m hop
  | .outside, none => s.lineError e
  | .outside, some m => s.detectMark e m hop side

/-- MARK_RECEIVED (R33). -/
def execMarkReceived (after : Nat) (e : EndId) (octets : List Octet) (s : State) : Result :=
  receive after e kindMark octets s fun p s => s.handMark e octets p

/-! ## Roll records (R54, R55, R141) -/

/-- The first four conditions under which a follower takes a roll record (R54). -/
def State.rollTaken (s : State) (e : EndId) : Bool :=
  (match s.form.node with
    | .member | .applicant | .orphan => true
    | .seek => s.form.seek.any SeekRecord.locked
    | .lead | .listen | .detached => false)
  && s.timer.kind == .marked && s.arrivalCell.map Prod.fst == some 0 && s.timer.acceptEnd == some e

/-- A taken record's answer handed on: to a SYNCED member at its own position, to an applicant by its tag (R89, R126). -/
def State.takeRollAnswer (s : State) (a : RollAnswer) : State :=
  match s.form.node with
  | .member =>
    if s.synced && a.position != 0 && a.position == s.ownPosition then
      s.deliver a.kind a.wantEnd a.outcome a.reason
    else s
  | .applicant => if a.position = 0 && a.tag = s.ownTag then s.applicantAnswer a.outcome a.reason else s
  | _ => s

/-- Entries of a CURRENT record of the working epoch in a SYNCED member: entries that differ are replaced, and the plan
is made again at the next cycle start; a record of another size or with another car at a held position is ignored
(R141). -/
def State.replaceEntries (s : State) (r : RollFields) : State :=
  match s.form.current with
  | some t =>
    let fits := r.size == t.size && r.entries.all fun en => (entryAt t.entries en.position).map Entry.tag == some en.tag
    let ens := r.entries.foldl (fun ens en => putEntry en ens) t.entries
    if fits && ens != t.entries then
      { s with form := { s.form with current := some { t with entries := ens } },
               planner := { s.planner with stale := true } }
    else s
  | none => s

/-- A CURRENT record gathered; an applicant's survey starts afresh when the heard table changes (R55, R120). (DEDUCED, log 55) -/
def State.gatherCurrent (s : State) (r : RollFields) : State :=
  let a := storeRecord s.form.asmCurrent r.epoch r.size r.entries
  let s1 : State := { s with form := { s.form with asmCurrent := some a } }
  if s.form.asmCurrent = some a then s1 else s1.mapApplicant ApplicantRecord.clearSurvey

/-- A taken record's table part, compared by epoch and placed in the assembly of its kind (R51, R54, R55). -/
def State.takeRollTable (s : State) (r : RollFields) : State :=
  match s.workingEpoch with
  | none => s
  | some ep =>
    let store := fun a => some (storeRecord a r.epoch r.size r.entries)
    match r.kind with
    | .current =>
      if r.epoch = ep then (if s.synced then s.replaceEntries r else s.gatherCurrent r) else s
    | .pending =>
      if r.epoch = ep + 1 then
        ({ s with form := { s.form with asmPending := store s.form.asmPending } } : State).completeTables
      else s
    | .armedA =>
      if r.epoch = ep + 1 then
        ({ s with form := { s.form with asmA := store s.form.asmA } } : State).completeTables
      else s
    | .armedB =>
      if r.epoch = ep + 1 then
        ({ s with form := { s.form with asmB := store s.form.asmB } } : State).completeTables
      else s

/-- A roll record taken by a follower (R54). -/
def State.takeRoll (s : State) (r : RollFields) : State :=
  (match r.answer with
    | some a => s.takeRollAnswer a
    | none => s).takeRollTable r

/-- A roll record handed on (R9, R17, R54, R120). (DEDUCED, log 24) LINE_ERRORS for one that is not well-formed is set on an
inner end or in BYPASS where R54's first four conditions hold, and on an outer end always (R17, R49, R180, DESIGN CHOICE,
log 104). It gives no reading of the adjacent foreign car (R18, DESIGN CHOICE, log 109). -/
def State.handRoll (s : State) (e : EndId) (os : List Octet) (p : Path) : State :=
  match p with
  | .ignored => s
  | .outside =>
    match decodeRoll os with
    | some r => s.detectRoll e r (recordHop os) (recordSide os)
    | none => s.lineError e
  | .bypass | .inward =>
    if s.rollTaken e then
      match decodeRoll os with
      | some r =>
        let s1 := s.takeRoll r
        if s1.form.node = .applicant then s1.surveyLeader e (recordHop os) (recordSide os) else s1
      | none => s.lineError e
    else s

/-- ROLL_RECORD_RECEIVED (R54). -/
def execRollRecordReceived (after : Nat) (e : EndId) (octets : List Octet) (s : State) : Result :=
  receive after e kindRoll octets s fun p s => s.handRoll e octets p

/-! ## Petition records (R90, R124) -/

/-- The sender is heard: its silence count is cleared, its heard mark set (R90, R92). -/
def State.hearSender (s : State) (t : Tag) : State :=
  { s with pet := { s.pet with silence := s.pet.silence.map fun c =>
      if c.tag = t then { c with count := 0, heard := true, owed := false } else c } }

/-- Whether a body's values lie where the table bounds them: a joint from 1 to n − 1 (R90). -/
def PetitionBody.fits (n : Nat) : PetitionBody → Bool
  | .split p | .splitCancel p => decide (1 ≤ p) && decide (p + 1 ≤ n)
  | _ => true

/-- The body of a petition record of a kind, where it is well-formed (R90). -/
def State.petitionBody (s : State) (k : WantKind) (os : List Octet) : Option PetitionBody :=
  match petitionEnd os with
  | some en => (decodePetitionBody k en (petitionBodyOctets os)).filter (PetitionBody.fits s.n)
  | none => none

/-- A petition record judged by the leader (R90). One that is out of its cell or of another sender is discarded silently, its
body not read (DESIGN CHOICE, log 70). -/
def State.takePetition (s : State) (e : EndId) (os : List Octet) : State :=
  let p := petitionSource os
  let t := petitionSender os
  let placed := s.arrivalCell.isSome && s.arrivalCell == some (petitionCell p)
    && decide (1 ≤ p) && decide (p ≤ s.n) && p != s.ownPosition
    && (entryAt s.entries p).map Entry.tag == some t
  match petitionKind os with
  | some k =>
    if placed && k != .enroll then
      match s.petitionBody k os with
      | some b =>
        let s1 := s.hearSender t
        (s1.dispatch t b).getD s1
      | none => s.lineError e
    else s
  | none => s

/-- The place of an ENROLL by the tags of the neighbours, where it lies within the table (R124). -/
def Place.byTags (ens : List Entry) : Place → Option TagPlace
  | .after a => (entryAt ens a).map fun x => .after x.tag ((entryAt ens (a + 1)).map Entry.tag)
  | .beforeFirst => (entryAt ens 1).map fun x => .beforeFirst x.tag

/-- An ENROLL judged by the leader (R124). -/
def State.takeEnroll (s : State) (e : EndId) (os : List Octet) : State :=
  let t := petitionSender os
  match petitionKind os, s.petitionBody .enroll os with
  | some .enroll, some (.enroll pl en) =>
    match pl.byTags s.entries with
    | some tp =>
      let running := match s.pet.inProgress with
        | some (.enroll t' _ _) => t' == t
        | _ => false
      if running || s.answerWaits t true .enroll none then s
      else (s.place (.enroll t en tp)).getD s
    | none => s.lineError e
  | some .enroll, _ => s.lineError e
  | _, _ => s

/-- A petition record handed on (R9, R90, R120). -/
def State.handPetition (s : State) (e : EndId) (os : List Octet) (p : Path) : State :=
  match p with
  | .ignored => s
  | .outside => s.detectOther e (petitionSource os) (recordHop os) (recordSide os)
  | .bypass =>
    if s.form.node = .applicant then
      s.surveyPetition e (petitionSource os) (petitionSender os) (recordHop os) (recordSide os)
    else s
  | .inward =>
    if s.form.node = .lead then (if s.fromApplicant os then s.takeEnroll e os else s.takePetition e os) else s

/-- PETITION_RECORD_RECEIVED (R90). -/
def execPetitionRecordReceived (after : Nat) (e : EndId) (octets : List Octet) (s : State) : Result :=
  receive after e kindPetition octets s fun p s => s.handPetition e octets p

/-! ## Channel records (R153) -/

/-- A channel record handed on (R9, R18, R120, R153). -/
def State.handChannel (s : State) (e : EndId) (os : List Octet) (p : Path) : State :=
  let c := decodeChannelRecord os
  match p with
  | .ignored => s
  | .outside => s.detectOther e c.source (recordHop os) (recordSide os)
  | .bypass => if s.form.node = .applicant then s.surveyChannel e c (recordHop os) (recordSide os) else s
  | .inward => s.takeChannelRecord e c

/-- CHANNEL_RECORD_RECEIVED (R153). -/
def execChannelRecordReceived (after : Nat) (e : EndId) (octets : List Octet) (s : State) : Result :=
  receive after e kindChannel octets s fun p s => s.handChannel e octets p

/-! ## Bad records (R12) -/

/-- The copy of a bad record already begun, finished with its check inverted (R8, R10). -/
def State.passCut (s : State) (e : EndId) (os : List Octet) : State :=
  match begunRecord os with
  | some (at_, r) => s.passOn e (s.pathOf e r) (s.now + at_) r.length (cutCopy r)
  | none => s

/-- BAD_RECORD_RECEIVED: what the octets hold of bad records is discarded, LINE_ERRORS set, a copy already begun finished
with its check inverted (R8, R10, R12, DEDUCED, log 50). A good record that the receiver finds behind a bad one's kind octet
comes by a command of its own (R187, DESIGN CHOICE, log 65). -/
def execBadRecordReceived (after : Nat) (e : EndId) (octets : List Octet) (s : State) : Result :=
  if !badRecord octets then .next s
  else if !s.powered then .next (s.passive after e octets)
  else
    let t := (s.advance after).hear e octets.length
    if (t.endUnit e).mode = .isolated then finish t t else finish t ((t.passCut e octets).lineError e)

/-! ## Ends -/

/-- CARRIER_CHANGE: 100 active ticks in ABSENT, 200 silent ticks in PRESENT, where that many are possible (R3). -/
def execCarrierChange (after : Nat) (e : EndId) (s : State) : Result :=
  whenPowered s fun s =>
    let t := s.advance after
    if (s.endUnit e).mode = .isolated || !(t.endUnit e).carrierDue then .next s
    else
      match (t.endUnit e).carrier with
      | .absent => finish t ((t.mapEnd e EndUnit.carrierUp).carrierEvent e .present)
      | .present => finish t ((t.mapEnd e EndUnit.carrierDown).carrierEvent e .absent)

/-- What a qualification brings: END_EVENT, and for OPEN FIXED_OPENED, the end of segregation, detection in QUIET with
attempts 0, and the formation's part (R2, R7, R13, R15, R139). -/
def State.qualified (s : State) (e : EndId) (closed : Bool) : State :=
  let c : ContactState := if closed then .closed else .opened
  let s1 := s.notify rankOther (.endEvent e (.contact c) s.capture)
  if closed then s1.tryReport e
  else
    let s2 := if s.fixedEnd e then s1.notify rankOther (.fixedOpened e s.capture) else s1
    (s2.mapEnd e fun u => { u.toQuiet with segregated := false, attempts := 0 }).onContactOpen e

/-- CONTACT_SAMPLE: the next sample of an end's contact, I ticks after the one before (R1). -/
def execContactSample (e : EndId) (closed : Bool) (s : State) : Result :=
  whenPowered s fun s =>
    match (s.endUnit e).nextSample with
    | none => .next s
    | some at_ =>
      let t := s.advanceTo at_
      let r := (t.endUnit e).sample t.settings.qualifyCount closed
      let t1 := t.mapEnd e fun _ => { r.1 with nextSample := some (at_ + t.settings.sampleInterval) }
      finish t (if r.2 then t1.qualified e closed else t1)

/-- FOREIGN_MARK_TIMEOUT: no foreign mark for 2 × P (R16). -/
def execForeignMarkTimeout (e : EndId) (s : State) : Result :=
  whenPowered s fun s =>
    match (s.endUnit e).foreignDeadline with
    | some d =>
      if s.detecting e && !(s.endUnit e).segregated && (s.endUnit e).timeoutApplies then
        let t := s.advanceTo d
        finish t (t.foreignSilence e)
      else .next s
    | none => .next s

/-- FOREIGN_QUIET_TIMEOUT: in QUIET_WATCH with a YIELD seen, no foreign mark for 2 × P (R20). -/
def execForeignQuietTimeout (e : EndId) (s : State) : Result :=
  whenPowered s fun s =>
    match (s.endUnit e).foreignDeadline with
    | some d =>
      if s.detecting e && !(s.endUnit e).segregated && (s.endUnit e).phase = .reported
          && (s.endUnit e).watch = .quietWatch true then
        let t := s.advanceTo d
        finish t (t.foreignQuiet e)
      else .next s
    | none => .next s

/-- WAITING_RECORD_SENT: the record in progress ends and the waiting one is sent (R10). -/
def execWaitingRecordSent (e : EndId) (s : State) : Result :=
  whenPowered s fun s =>
    match (s.endUnit e).sending, (s.endUnit e).waiting with
    | some p, some _ =>
      let t := s.advanceTo p.ends
      finish t t
    | _, _ => .next s

end Sys2Proof.Machine
end

