-- ==== Sys2Proof/Machine/Requests.lean ====
section
/-! DEFINITION. The requests of the car controller (R6, R44, R48, R129, R149, R160, R161, R165 to R172, R177 to R183). -/

namespace Sys2Proof.Machine

open Sys2Proof

/-! ## Asking about the part (R177 to R180) -/

/-- UNKNOWN: the oldest held frame is of no request kind; it is replied and has no effect (R174, R177). -/
def execUnknown (s : State) : Result :=
  match s.frameFor fun k => !isRequest k with
  | some f => finish s (s.reply f .unknown .empty)
  | none => .next s

/-- IDENTIFY (R178). -/
def execIdentify (s : State) : Result :=
  serve reqIdentify parseNothing s fun _ f s =>
    s.reply f .done (.identify Config.familyCode Config.partCode Config.revision
      (s.store.readIdentity.map Identity.tag) s.form.node)

/-- One end as STATUS gives it (R179). -/
def State.endReport (s : State) (e : EndId) : EndReport :=
  let u := s.endUnit e
  { condition := s.condition e, mode := u.mode, contact := u.contact, carrier := u.carrier, detect := u.detect,
    attempts := u.attempts }

/-- The active cab and the heading as a car presents them: 0 and NONE in DETACHED, LISTEN and APPLICANT (R98, R179). -/
def State.cabReport (s : State) : Nat × Direction :=
  if s.form.node = .detached || s.form.node = .listen || s.form.node = .applicant then (0, .none)
  else match s.timer.latched with
    | some m => (m.cab, m.heading.toLocal (s.ownOrientation.getD .facing))
    | none => (0, .none)

/-- The body of a STATUS reply (R179). -/
def State.statusReport (s : State) : StatusReport :=
  { node := s.form.node
    synced := match s.form.node with
      | .member => some s.synced
      | .lead => some true
      | _ => none
    epoch := s.form.current.map Table.epoch
    size := s.form.current.map Table.size
    position := s.ownPosition
    orientation := s.ownOrientation
    leader := s.leaderTag
    procedure := s.timer.latched.map MarkFields.procedure
    countdown := s.timer.latched.map MarkFields.countdown
    cab := s.cabReport.1
    heading := s.cabReport.2
    lock := s.timer.lock
    early := s.timer.early
    missed := s.timer.missed
    end1 := s.endReport .e1
    end2 := s.endReport .e2
    applicant := if s.form.node = .applicant then s.form.applicant.map fun a =>
        { status := a.status, place := a.place, orientation := a.orientation, attempt := a.attempt }
      else none
    identityGood := s.store.identity.good
    serviceGood := s.store.service.good
    storeOp := s.store.op.map StoreOp.area
    notices := s.link.notices.length
    flags := s.link.flags }

/-- STATUS: the flags are copied into the reply and then all cleared (R179, R180). -/
def execStatus (s : State) : Result :=
  serve reqStatus parseNothing s fun _ f s =>
    (s.reply f .done (.status s.statusReport)).setFlags fun _ => StickyFlags.clear

/-! ## Starting, stopping and restarting (R44, R48, R172, R181) -/

/-- An end unit at START (R1, R22). -/
def EndUnit.start (first : Nat) (u : EndUnit) : EndUnit :=
  { EndUnit.initial with
    carrier := u.carrier, activeCount := u.activeCount, silentCount := u.silentCount, octetsLeft := u.octetsLeft,
    freeTicks := u.freeTicks, mode := u.mode, segregated := u.segregated, nextSample := some first }

/-- An end unit at STOP (R1, R7, R22). -/
def EndUnit.stop (u : EndUnit) : EndUnit :=
  { EndUnit.initial with
    contact := u.contact, carrier := u.carrier, activeCount := u.activeCount, silentCount := u.silentCount,
    octetsLeft := u.octetsLeft, freeTicks := u.freeTicks, mode := u.mode }

/-- The channel unit at START and STOP: live copies and image go, staging, ages and watch list stay (R163). -/
def ChannelUnit.quiet (c : ChannelUnit) : ChannelUnit := { c with live := [], image := none }

/-- The settings snapshot a START makes (R172). -/
def Store.snapshotNow (st : Store) : Snapshot := { identity := st.identity.contents, service := st.readService }

/-- START taken: the snapshot, LISTEN, and every block at its values for START (R22, R43, R44, R68, R84, R101, R128, R148,
R163, R172, R173, R185). -/
def State.startUp (s : State) : State :=
  let sn := s.store.snapshotNow
  let first := s.now + sn.service.sampleInterval
  ({ s with
      e1 := s.e1.start first, e2 := s.e2.start first
      timer := CycleTimer.initial
      form := { FormationUnit.initial with node := .listen }
      planner := Planner.initial, pet := PetitionUnit.initial
      chan := s.chan.quiet
      store := { s.store with snapshot := some sn } } : State).setFlags fun fl =>
    if s.store.service.good then fl else { fl with serviceDefaulted := true }

/-- STOP taken: DETACHED, and every block at its values for STOP (R22, R43, R48, R68, R84, R101, R128, R148, R163, R173,
R185). -/
def State.shutDown (s : State) : State :=
  { s with
    e1 := s.e1.stop, e2 := s.e2.stop
    timer := CycleTimer.initial
    form := FormationUnit.initial
    planner := Planner.initial, pet := PetitionUnit.initial
    chan := s.chan.quiet }

/-- START (R44, R172, R181). -/
def execStart (s : State) : Result :=
  serve reqStart parseNothing s fun _ f s =>
    if s.form.node ≠ .detached then s.reply f .wrongState .empty
    else if s.store.op.isSome then s.reply f .busy .empty
    else if !s.store.identity.good then s.reply f .notConfigured .empty
    else s.startUp.reply f .done .empty

/-- STOP (R48, R181). -/
def execStop (s : State) : Result :=
  serve reqStop parseNothing s fun _ f s =>
    if s.form.node = .detached then s.reply f .wrongState .empty else s.shutDown.reply f .done .empty

/-- RESTART: replied DONE; from here on nothing more is served and no notice is sent (R181). -/
def execRestart (s : State) : Result :=
  serve reqRestart parseNothing s fun _ f s =>
    ({ s with link := { s.link with restarting := true } } : State).reply f .done .empty

/-! ## Ends (R3, R6, R13) -/

/-- The end mode of an end set (R3, R6); in ISOLATED a carrier that was PRESENT becomes ABSENT, which is an end event. -/
def State.setMode (s : State) (e : EndId) (m : EndMode) : State :=
  if (s.endUnit e).mode = m then s
  else
    let s1 := s.mapEnd e (EndUnit.withMode m)
    if m = .isolated && (s.endUnit e).carrier = .present then s1.carrierEvent e .absent else s1

/-- SET_END_MODE(end, mode) (R6). -/
def execSetEndMode (s : State) : Result :=
  serve reqSetEndMode parseEndMode s fun a f s => (s.setMode a.1 a.2).reply f .done .empty

/-! ## Channels and the image (R149, R160, R161, R182) -/

/-- The channel count PUBLISH judges against: the snapshot's list, before the first START the stored one (R149). -/
def State.channelCount (s : State) : Nat :=
  match s.store.snapshot with
  | some sn => sn.service.channels.length
  | none => s.store.readService.channels.length

/-- A payload padded with zero octets to 32 (R149). -/
def padded (p : List Octet) : List Octet := p ++ List.replicate (32 - p.length) 0

/-- PUBLISH(channel, payload) (R149). -/
def execPublish (s : State) : Result :=
  serve reqPublish parsePublish s fun a f s =>
    if s.channelCount ≤ a.1 then s.reply f .badArgument .empty
    else
      ({ s with chan := { s.chan with
          out := s.chan.out.set a.1 { s.outOf a.1 with staging := padded a.2, written := true } } } : State).reply f
        .done .empty

/-- Whether a cell's name lies within READ_IMAGE's ranges (R182). -/
def CellName.ok : CellName → Bool
  | .byTag t ch => validTag t && decide (ch ≤ 7)
  | .byPosition p ch => decide (1 ≤ p) && decide (p ≤ 16) && decide (ch ≤ 7)

/-- The cell READ_IMAGE names (R160). -/
def State.findCell (s : State) : CellName → Option ImageCell
  | .byTag t ch => cellOfTag s.cells t ch
  | .byPosition p ch => cellAt s.cells p ch

/-- READ_IMAGE(cell): the cell with the train time of the read (R27, R160, R182). -/
def execReadImage (s : State) : Result :=
  serve reqReadImage parseReadImage s fun c f s =>
    if !c.ok then s.reply f .badArgument .empty
    else match s.findCell c with
      | some x => s.reply f .done (.cell (x.report (some s.trainTime)))
      | none => s.reply f .notFound .empty

/-- The table READ_TABLE reads: whether it is the heard one, its epoch, size and entries (R182). -/
def State.readableTable (s : State) : Option (Bool × Epoch × Nat × List Entry) :=
  match s.form.node with
  | .lead | .member | .seek | .orphan => s.form.current.map fun t => (false, t.epoch, t.size, t.entries)
  | .applicant => s.form.asmCurrent.map fun a => (true, a.epoch, a.size, a.entries)
  | .detached | .listen => none

/-- READ_TABLE(first index, count) (R182). -/
def execReadTable (s : State) : Result :=
  serve reqReadTable parseReadTable s fun a f s =>
    if a.2 = 0 || 7 < a.2 || a.1 = 0 || 16 < a.1 then s.reply f .badArgument .empty
    else match s.readableTable with
      | none => s.reply f .notFound .empty
      | some (heard, ep, size, ens) =>
        if size < a.1 then s.reply f .notFound .empty
        else
          let last := min (a.1 + a.2 - 1) size
          s.reply f .done (.table heard ep size a.1
            ((List.range (last + 1 - a.1)).map fun k => entryAt ens (a.1 + k)))

/-- WATCH(tag, channel) (R161). -/
def execWatch (s : State) : Result :=
  serve reqWatch parseWatch s fun w f s =>
    if 7 < w.2 || !validTag w.1 then s.reply f .badArgument .empty
    else if s.chan.watch.contains w then s.reply f .done .empty
    else if Config.watchSize ≤ s.chan.watch.length then s.reply f .full .empty
    else ({ s with chan := { s.chan with watch := s.chan.watch ++ [w] } } : State).reply f .done .empty

/-- UNWATCH(tag, channel): the entry goes, and with it its CHANGE notice that has not begun (R161). -/
def execUnwatch (s : State) : Result :=
  serve reqUnwatch parseWatch s fun w f s =>
    if s.chan.watch.contains w then
      ({ s with
          chan := { s.chan with watch := s.chan.watch.filter fun x => x != w }
          link := { s.link with notices := s.link.notices.filter fun n => n.body.changeOf != some w } } :
        State).reply f .done .empty
    else s.reply f .done .empty

/-! ## Wants (R85, R129, R183) -/

/-- A request that asks for a want is taken in LEAD and MEMBER only (R183). -/
def State.takesWants (s : State) : Bool := s.form.node == .lead || s.form.node == .member

/-- A SPLIT or SPLIT_CANCEL is queued with its want joint; one of a joint the table does not have is removed at once
(R129, DEDUCED, log 39). -/
def State.queueJoint (s : State) (k : WantKind) (p : Nat) (make : Nat → Tag → Tag → Want) : State :=
  match jointTags s.entries p with
  | some j => s.queueWant (make p j.1 j.2)
  | none => (s.dropWant k none).notify rankOutcome (.splitOutcome k (.answer .badJoint none))

/-- SPLIT(p) (R129, R183). -/
def execSplit (s : State) : Result :=
  serve reqSplit parseJoint s fun p f s =>
    if !s.takesWants then s.reply f .wrongState .empty
    else if p = 0 || 15 < p then s.reply f .badArgument .empty
    else (s.queueJoint .split p Want.split).reply f .accepted .empty

/-- SPLIT_CANCEL(p) (R129, R183). -/
def execSplitCancel (s : State) : Result :=
  serve reqSplitCancel parseJoint s fun p f s =>
    if !s.takesWants then s.reply f .wrongState .empty
    else if p = 0 || 15 < p then s.reply f .badArgument .empty
    else (s.queueJoint .splitCancel p Want.splitCancel).reply f .accepted .empty

/-- CAB_CLAIM (R183). -/
def execCabClaim (s : State) : Result :=
  serve reqCabClaim parseNothing s fun _ f s =>
    if !s.takesWants then s.reply f .wrongState .empty else (s.queueWant .cabClaim).reply f .accepted .empty

/-- CAB_RELEASE (R183). -/
def execCabRelease (s : State) : Result :=
  serve reqCabRelease parseNothing s fun _ f s =>
    if !s.takesWants then s.reply f .wrongState .empty else (s.queueWant .cabRelease).reply f .accepted .empty

/-- HEADING(direction) (R183). -/
def execHeading (s : State) : Result :=
  serve reqHeading parseHeading s fun d f s =>
    if !s.takesWants then s.reply f .wrongState .empty else (s.queueWant (.heading d)).reply f .accepted .empty

/-! ## The store (R165 to R171) -/

/-- A store operation begins (R165). -/
def State.beginOp (s : State) (k : StoreOpKind) (c : StoreContents) : State :=
  { s with store := { s.store with op := some { kind := k, contents := c, begun := s.now } } }

/-- SETTINGS_READ(area, source) (R166). -/
def execSettingsRead (s : State) : Result :=
  serve reqSettingsRead parseSettingsRead s fun a f s =>
    if s.store.op.isSome then s.reply f .busy .empty
    else s.reply f .done (match a.1, a.2 with
      | .identity, false =>
        .storedIdentity s.store.identity.good (s.store.readProtect .identity) s.store.readIdentity
      | .service, false =>
        .storedService (!s.store.service.good) (s.store.readProtect .service) s.store.readService
      | .identity, true => .snapshotIdentity (s.store.snapshot.map Snapshot.identity)
      | .service, true => .snapshotService (s.store.snapshot.map Snapshot.service))

/-- SETTINGS_WRITE(area, values), judged in the order of R167's table; an accepted one leaves, and its reply carries, the values
with the area's present protect flag. -/
def execSettingsWrite (s : State) : Result :=
  serve reqSettingsWrite parseSettingsWrite s fun a f s =>
    if s.store.op.isSome then s.reply f .busy .empty
    else if s.store.readProtect a.1 then s.reply f .protected_ .empty
    else match a.1 with
      | .identity =>
        if s.form.node ≠ .detached then s.reply f .wrongState .empty
        else match writeIdentity s.store.readIdentity a.2 with
          | some c =>
            let p := s.store.readProtect .identity
            (s.beginOp .write (.identity c p)).reply f .accepted (.writtenIdentity c p)
          | none => s.reply f .badArgument .empty
      | .service =>
        match writeService s.store.readService a.2 with
        | some c =>
          let p := s.store.readProtect .service
          (s.beginOp .write (.service c p)).reply f .accepted (.writtenService c p (serviceMarkers a.2))
        | none => s.reply f .badArgument .empty

/-- The contents a protect operation leaves: the area's present reading with the flag; none on a BAD IDENTITY (R171). -/
def Store.protectContents (st : Store) (on : Bool) : AreaId → Option StoreContents
  | .identity => st.readIdentity.map fun c => .identity c on
  | .service => some (.service st.readService on)

/-- A protect operation begins, or is refused where the area has no values (R171). -/
def State.protect (s : State) (f : Frame) (area : AreaId) (on : Bool) : State :=
  match s.store.protectContents on area with
  | some c => (s.beginOp .protect c).reply f .done .empty
  | none => s.reply f .badArgument .empty

/-- SETTINGS_PROTECT(area, on) (R171). -/
def execSettingsProtect (s : State) : Result :=
  serve reqSettingsProtect parseSettingsProtect s fun a f s =>
    if s.store.op.isSome then s.reply f .busy .empty
    else if a.2 = s.store.readProtect a.1 then s.reply f .done .empty
    else if a.2 then s.protect f a.1 true
    else if s.form.node = .detached && s.e1.contact = .opened && s.e2.contact = .opened then s.protect f a.1 false
    else s.reply f .wrongState .empty

end Sys2Proof.Machine
end

