-- ==== Sys2Proof/Machine/Dispatch.lean ====
section
/-! DEFINITION. One arm per command: what each does to everything but the queue. -/

namespace Sys2Proof.Machine

open Sys2Proof

/-- The effect of a command (95_what_each_step_holds). -/
def exec (i : Instr) (s : State) : Host.Outcome State Fault Refusal :=
  match i with
  | .powerOn => Sys2Proof.Machine.execPowerOn s
  | .powerLoss after => Sys2Proof.Machine.execPowerLoss after s
  | .frameReceived after octets => Sys2Proof.Machine.execFrameReceived after octets s
  | .frameTimeout after octets => Sys2Proof.Machine.execFrameTimeout after octets s
  | .transmitFrameEnd after => Sys2Proof.Machine.execTransmitFrameEnd after s
  | .unknown => Sys2Proof.Machine.execUnknown s
  | .identify => Sys2Proof.Machine.execIdentify s
  | .status => Sys2Proof.Machine.execStatus s
  | .start => Sys2Proof.Machine.execStart s
  | .stop => Sys2Proof.Machine.execStop s
  | .restart => Sys2Proof.Machine.execRestart s
  | .restartTakesEffect after => Sys2Proof.Machine.execRestartTakesEffect after s
  | .setEndMode => Sys2Proof.Machine.execSetEndMode s
  | .publish => Sys2Proof.Machine.execPublish s
  | .readImage => Sys2Proof.Machine.execReadImage s
  | .readTable => Sys2Proof.Machine.execReadTable s
  | .watch => Sys2Proof.Machine.execWatch s
  | .unwatch => Sys2Proof.Machine.execUnwatch s
  | .split => Sys2Proof.Machine.execSplit s
  | .splitCancel => Sys2Proof.Machine.execSplitCancel s
  | .cabClaim => Sys2Proof.Machine.execCabClaim s
  | .cabRelease => Sys2Proof.Machine.execCabRelease s
  | .heading => Sys2Proof.Machine.execHeading s
  | .settingsRead => Sys2Proof.Machine.execSettingsRead s
  | .settingsWrite => Sys2Proof.Machine.execSettingsWrite s
  | .settingsProtect => Sys2Proof.Machine.execSettingsProtect s
  | .storeOperationEnd after => Sys2Proof.Machine.execStoreOperationEnd after s
  | .listenTimeout => Sys2Proof.Machine.execListenTimeout s
  | .contactSample e closed => Sys2Proof.Machine.execContactSample e closed s
  | .carrierChange after e => Sys2Proof.Machine.execCarrierChange after e s
  | .markReceived after e octets => Sys2Proof.Machine.execMarkReceived after e octets s
  | .badRecordReceived after e octets => Sys2Proof.Machine.execBadRecordReceived after e octets s
  | .foreignMarkTimeout e => Sys2Proof.Machine.execForeignMarkTimeout e s
  | .foreignQuietTimeout e => Sys2Proof.Machine.execForeignQuietTimeout e s
  | .rollRecordReceived after e octets => Sys2Proof.Machine.execRollRecordReceived after e octets s
  | .petitionRecordReceived after e octets => Sys2Proof.Machine.execPetitionRecordReceived after e octets s
  | .channelRecordReceived after e octets => Sys2Proof.Machine.execChannelRecordReceived after e octets s
  | .waitingRecordSent e => Sys2Proof.Machine.execWaitingRecordSent e s
  | .generatedCycleStart => Sys2Proof.Machine.execGeneratedCycleStart s
  | .switchMark => Sys2Proof.Machine.execSwitchMark s
  | .armedReached => Sys2Proof.Machine.execArmedReached s
  | .splitSwitch => Sys2Proof.Machine.execSplitSwitch s
  | .yieldEnd => Sys2Proof.Machine.execYieldEnd s
  | .armedTimeout => Sys2Proof.Machine.execArmedTimeout s
  | .principalJoinDeadline => Sys2Proof.Machine.execPrincipalJoinDeadline s
  | .absorbedJoinDeadline => Sys2Proof.Machine.execAbsorbedJoinDeadline s
  | .silenceLimit => Sys2Proof.Machine.execSilenceLimit s
  | .workItemStart => Sys2Proof.Machine.execWorkItemStart s
  | .cellStart => Sys2Proof.Machine.execCellStart s
  | .flywheelStart => Sys2Proof.Machine.execFlywheelStart s
  | .orphanEntry => Sys2Proof.Machine.execOrphanEntry s
  | .yieldSeekEntry => Sys2Proof.Machine.execYieldSeekEntry s
  | .coastingStart => Sys2Proof.Machine.execCoastingStart s
  | .succession => Sys2Proof.Machine.execSuccession s
  | .firstGeneratedMark => Sys2Proof.Machine.execFirstGeneratedMark s
  | .seekDeadlineResume => Sys2Proof.Machine.execSeekDeadlineResume s
  | .seekDeadlineOrphan => Sys2Proof.Machine.execSeekDeadlineOrphan s
  | .enrollAttemptAdvance => Sys2Proof.Machine.execEnrollAttemptAdvance s
  | .windowOpens => Sys2Proof.Machine.execWindowOpens s
  | .frameDropped after octets => Sys2Proof.Machine.execFrameDropped after octets s

end Sys2Proof.Machine
end

