-- ==== Sys2Proof/Machine/Step.lean ====
section
/-! DEFINITION. One step: the command at the front of the queue, or one tick (DESIGN CHOICE, log 2). -/

namespace Sys2Proof.Machine

open Sys2Proof

/-- The state without the command at the front of its queue. -/
def State.dropFront (s : State) : State := { s with pending := s.pending.tail }

/-- One step of the part: the oldest waiting command; on an empty queue one tick passes (DESIGN CHOICE, log 2). (DESIGN CHOICE, log 3) -/
def step (s : State) : Host.Outcome State Fault Refusal :=
  match s.pending with
  | [] => .next (s.advance 1)
  | c :: _ => exec c s.dropFront

/-- The state with the command that a word spells put at the front of its queue. (DESIGN CHOICE, log 7) -/
def State.withFetchWord (s : State) (nbits w : Nat) : State :=
  match decodeTableWord nbits w with
  | some c => { s with pending := c :: s.pending }
  | none => s

end Sys2Proof.Machine
end

