-- ==== Sys2Proof/Safety.lean ====
section
/-! DEFINITION. What statements about the part are made of: a served request and its reply, the link at rest, bounded
buffers, a cycle opened (R161, R163, R175, R176, R188). -/

namespace Sys2Proof.Machine

open Sys2Proof

/-! ## The car link -/

/-- The oldest held frame `f` is of kind `k` and is served now (R175). -/
abbrev Ready (s : State) (f : Frame) (k : Octet) : Prop :=
  s.powered = true ∧ s.outbox = [] ∧ s.link.holding.head? = some f ∧ f.kind = k ∧ s.link.reply = none
    ∧ s.link.restarting = false

/-- The state with a reply made: on an idle path it begins and the frame leaves the holding, else it waits (R175, R176, R188). -/
def State.replied (s : State) (f : Frame) (o : Outcome) (b : ReplyBody) : State :=
  let r : Reply := { kind := replyKind f.kind, tag := f.tag, outcome := o, body := b }
  if s.link.tx = .idle then
    { s with link := { s.link with tx := .reply r, line := r.octets, holding := s.link.holding.tail } }
  else { s with link := { s.link with reply := some r } }

/-- Between steps no notice is on its way to the queue, and the transmit path is idle only when it has nothing to begin
(R176, R181). -/
abbrev AtRest (s : State) : Prop :=
  s.outbox = [] ∧ (s.link.tx = .idle → s.link.reply = none ∧ (s.link.notices = [] ∨ s.link.restarting = true))

/-- A notice of these contents is queued, or is being sent. -/
def Queues (t : State) (b : NoticeBody) : Prop :=
  (∃ n ∈ t.link.notices, n.body = b) ∨ ∃ n, t.link.tx = .notice n ∧ n.body = b

/-- The capacities that the spec gives the holding and the watch list, and the eight channels of the outbound side
(R161, R163, R175). -/
abbrev BuffersBounded (s : State) : Prop :=
  s.link.holding.length ≤ 4 ∧ s.chan.watch.length ≤ 16 ∧ s.chan.out.length = 8

/-- A reply to a frame has been made: it is being sent, or it waits. -/
def Replies (t : State) (f : Frame) (o : Outcome) (b : ReplyBody) : Prop :=
  let r : Reply := { kind := replyKind f.kind, tag := f.tag, outcome := o, body := b }
  t.link.tx = .reply r ∨ t.link.reply = some r

/-- The state `later` ticks after octets of the car link came, `k` ticks from now, with nothing left in the receive path
(R174). -/
def State.octetsCame (s : State) (k later : Nat) : State :=
  { s.advance (k + later) with link := { s.link with rx := [], lastOctet := s.now + k } }

/-! ## Records and work -/

/-- A well-formed mark arrives on an ACTIVE end of a car in a formation, inner where `outer` is false (R9). -/
abbrev MarkComes (s : State) (e : EndId) (os : List Octet) (m : MarkFields) (outer : Bool) : Prop :=
  s.powered = true ∧ (s.endUnit e).mode = .line ∧ (s.endUnit e).segregated = false ∧ s.outer e = outer
    ∧ goodRecordOf kindMark os = true ∧ decodeMark os = some m

/-- A member in LOCKED or FLYWHEEL, with no relock armed, hears marks on an end: its upstream one (R33, R36). -/
abbrev FollowsOn (s : State) (e : EndId) : Prop :=
  s.form.node = .member ∧ (s.timer.lock = .locked ∨ s.timer.lock = .flywheel) ∧ s.timer.early < 3 ∧ s.upstream = some e

/-- An instant lies in the window (R34). -/
abbrev InWindow (s : State) (at_ : Nat) : Prop := s.windowOpen ≤ at_ ∧ at_ ≤ s.windowClose

/-- An item at the head of the work list of a leader in STEADY with no item in progress, which owes no mark with STEADY
(R95, R112, R133, R135). -/
abbrev ItemStarts (s : State) (it : WorkItem) (rest : List WorkItem) : Prop :=
  s.powered = true ∧ s.form.node = .lead ∧ s.pet.inProgress = none ∧ s.pet.deferred = false
    ∧ s.form.procedure = some .steady ∧ s.pet.work = it :: rest

/-- An end whose transmitter takes an own record at once (R10, R11). -/
abbrev SendsAtOnce (s : State) (e : EndId) (k : Nat) : Prop :=
  s.condition e = .active ∧ ((s.advance k).endUnit e).sending = none ∧ ((s.advance k).endUnit e).waiting = none

/-- The end is sending an own record that began now (R10). -/
def SendsOwn (t : State) (e : EndId) (os : List Octet) : Prop :=
  (t.endUnit e).sending = some { record := { octets := os, heard := none }, ends := t.now + os.length }

/-- A petition from the car and in the cell that the table gives its position comes to a leader on an inner end
(R9, R90). -/
abbrev PetitionComes (s : State) (e : EndId) (os : List Octet) (en : Entry) (k : Nat) : Prop :=
  s.powered = true ∧ s.form.node = .lead ∧ (s.endUnit e).mode = .line ∧ (s.endUnit e).segregated = false
    ∧ s.outer e = false ∧ goodRecordOf kindPetition os = true ∧ 1 ≤ petitionSource os ∧ petitionSource os ≤ s.n
    ∧ petitionSource os ≠ s.ownPosition ∧ entryAt s.entries (petitionSource os) = some en ∧ en.tag = petitionSender os
    ∧ (s.advance k).arrivalCell = some (petitionCell (petitionSource os))

/-- Such a petition carries a want of this body, its values in the table's bounds (R86, R90). -/
abbrev WantComes (s : State) (e : EndId) (os : List Octet) (en : Entry) (b : PetitionBody) (k : Nat) : Prop :=
  PetitionComes s e os en k ∧ petitionKind os = some b.kind ∧ petitionEnd os = some b.wantEnd
    ∧ decodePetitionBody b.kind b.wantEnd (petitionBodyOctets os) = some b ∧ b.fits s.n = true

/-- The leader's answer queue takes one answer that is not for the leader's own car, with room for it (R96). -/
abbrev RoomFor (s : State) (target : Tag) : Prop := target ≠ s.ownTag ∧ s.pet.answers.length < 16

/-- No answer to that want waits, and one can be queued (R90, R96). -/
abbrev Answerable (s : State) (t : Tag) (b : PetitionBody) : Prop :=
  s.answerWaits t false b.kind b.wantEnd = false ∧ RoomFor s t

/-- The petition unit once it has heard a car: its silence count is 0 and its mark set (R92). -/
def PetitionUnit.hearing (p : PetitionUnit) (t : Tag) : PetitionUnit :=
  { p with silence := p.silence.map fun c => if c.tag = t then { c with count := 0, heard := true, owed := false } else c }

/-- A car tag and an end that key a join assembly (R93). -/
abbrev JoinAssembly.isOf (t : Tag) (e : EndId) (j : JoinAssembly) : Bool := j.reporter == t && j.reporterEnd == e

/-- Whether a work item is a SPLIT of the joint of two tags (R94, R129). -/
def WorkItem.splits (l h : Tag) : WorkItem → Bool
  | .split _ l' h' _ => (l' == l && h' == h) || (l' == h && h' == l)
  | .join _ _ _ | .brk _ _ _ _ _ | .enroll _ _ _ | .dropout _ => false

/-- Whether a work item is a BREAK of a reporter and end (R94). -/
def WorkItem.breaks (t : Tag) (e : EndId) : WorkItem → Bool
  | .brk t' e' _ _ _ => t' == t && e' == e
  | .join _ _ _ | .split _ _ _ _ | .enroll _ _ _ | .dropout _ => false

/-- Whether a work item is a JOIN of a reporter and end (R94). -/
def WorkItem.joins (t : Tag) (e : EndId) : WorkItem → Bool
  | .join t' e' _ => t' == t && e' == e
  | .brk _ _ _ _ _ | .split _ _ _ _ | .enroll _ _ _ | .dropout _ => false

/-- A well-formed roll record comes to a MEMBER in slot 0 of a MARKED cycle, at the end the mark came by (R54). -/
abbrev RollComes (s : State) (e : EndId) (os : List Octet) (r : RollFields) (k : Nat) : Prop :=
  s.powered = true ∧ s.form.node = .member ∧ (s.endUnit e).mode = .line ∧ (s.endUnit e).segregated = false
    ∧ s.outer e = false ∧ s.timer.kind = .marked ∧ s.timer.acceptEnd = some e
    ∧ (s.advance k).arrivalCell.map Prod.fst = some 0 ∧ goodRecordOf kindRoll os = true ∧ decodeRoll os = some r

/-- Such a record carries an answer for the own position of a SYNCED member (R89). -/
abbrev AnswerComes (s : State) (e : EndId) (os : List Octet) (r : RollFields) (a : RollAnswer) (k : Nat) : Prop :=
  RollComes s e os r k ∧ s.synced = true ∧ r.answer = some a ∧ a.position = s.ownPosition ∧ a.position ≠ 0

/-! ## End events -/

/-- The followed leader's line comes by this end of a MEMBER or ORPHAN, under this epoch (R33, R52). -/
abbrev LineComesBy (s : State) (e : EndId) (ep : Epoch) : Prop :=
  (s.form.node = .member ∨ s.form.node = .orphan) ∧ s.upstream = some e ∧ s.timer.followed.map Prod.snd = some ep

/-- A part that is armed complete under that epoch and the designated B leader, with table B (R63, R139). -/
abbrev DesignatedB (s : State) (b : Table) (ep : Epoch) : Prop :=
  s.form.designatedB = some s.ownTag ∧ (∃ a, s.form.armedA = some a ∧ a.epoch = ep + 1) ∧ s.form.armedB = some b
    ∧ b.epoch = ep + 1 ∧ holdsTag b.entries s.ownTag = true

/-- What a qualified OPEN or a carrier loss on an end of a car in a formation sets going, with the cause and the capture of
the event: at an inner end that is not upstream a BREAK want, which a free leader takes at once as a work item; at the
upstream end of the designated B leader its entry into LEAD with table B (R13, R91, R94, R139). -/
abbrev EndEventTold (s t : State) (e : EndId) (cause : Cause) (cap : Capture) : Prop :=
  (s.form.node = .member → s.inner e = true → s.upstream ≠ some e →
    t.pet.queue = putWant (.brk e cause cap (s.fixedEnd e)) s.pet.queue ∧ t.form.node = .member
      ∧ t.form.fastPath = s.form.fastPath)
  ∧ (s.form.node = .lead → s.inner e = true → s.pet.inProgress = none → s.pet.work.length < 8 →
    s.pet.work.any (WorkItem.breaks s.ownTag e) = false →
    t.pet.work = insertUrgent (.brk s.ownTag e cause cap (s.fixedEnd e)) s.pet.work ∧ t.form.node = .lead
      ∧ t.pet.answers = s.pet.answers)
  ∧ (s.form.node = .member → s.inner e = false ∨ s.upstream = some e → s.form.designatedB ≠ some s.ownTag →
    t.pet.queue = s.pet.queue)
  ∧ (∀ b ep, LineComesBy s e ep → DesignatedB s b ep →
    t.form.node = .lead ∧ t.form.led = some { table := b, by_ := .designatedB } ∧ t.form.fastPath = none)

/-- What a carrier loss sets going: as any end event; and at the upstream end of a part that is not the designated B leader
a MEMBER's fast-path mark, which stands to its next accepted mark or its ORPHAN entry, and an ORPHAN's entry into LEAD
by the fast path at once (R143, R144). -/
abbrev LossTold (s t : State) (e : EndId) (cause : Cause) (cap : Capture) : Prop :=
  EndEventTold s t e cause cap
  ∧ (∀ ep, LineComesBy s e ep → s.form.designatedB ≠ some s.ownTag →
    (s.form.node = .member → t.form.node = .member ∧ t.form.fastPath = some cap ∧ t.form.led = s.form.led)
    ∧ (s.form.node = .orphan → t.form.node = .lead ∧ t.form.led = some
      { table := Table.mk (ep + 1) (grantKept s.settings.period s.ownTag
          (if s.sideOf e = .ref then keepRun s.entries s.ownPosition s.n else keepRun s.entries 1 s.ownPosition))
        by_ := .fastPath { cause := cause, capture := cap, fixed := s.fixedEnd e } }))

/-! ## Cycles -/

/-- The timer of `t` has taken a cycle start that is no accepted mark, in the state `s` (R26, R29). -/
abbrev CycleOpened (s t : State) : Prop :=
  t.timer.counter = 0 ∧ t.timer.index = (s.timer.index + 1) % 4
    ∧ t.timer.round = (if (s.timer.index + 1) % 4 = 0 then s.timer.round + 1 else s.timer.round)
    ∧ t.timer.kind = .marked ∧ t.timer.nextSlot = 0

/-! ## What the lines and the clock leave alone -/

/-- The parts of the state that are changed from the car link, by the supply and by the store only: the queue of commands,
power, the store, the watch list, the staging copies, the end modes, the receive path, the held frames, the waiting
reply (R6, R149, R161, R165, R174, R175, R181). -/
structure Spared where
  pending : List Instr
  powered : Bool
  store : Store
  watch : List (Tag × Nat)
  staging : List (List Octet)
  mode1 : EndMode
  mode2 : EndMode
  rx : List Octet
  lastOctet : Nat
  holding : List Frame
  reply : Option Reply
  restarting : Bool
  deriving DecidableEq, Repr

/-- Those parts of a state. -/
def State.spared (s : State) : Spared :=
  { pending := s.pending, powered := s.powered, store := s.store, watch := s.chan.watch,
    staging := s.chan.out.map OutChannel.staging, mode1 := s.e1.mode, mode2 := s.e2.mode, rx := s.link.rx,
    lastOctet := s.link.lastOctet, holding := s.link.holding, reply := s.link.reply, restarting := s.link.restarting }

/-- What an end unit senses of its contact and its line, and the mode it is in (R1, R3, R6). -/
structure Sense where
  contact : ContactState
  filterCount : Nat
  lastSample : Option Bool
  nextSample : Option Nat
  carrier : CarrierState
  mode : EndMode
  deriving DecidableEq, Repr

/-- The sense of an end unit. -/
def EndUnit.sense (u : EndUnit) : Sense :=
  { contact := u.contact, filterCount := u.filterCount, lastSample := u.lastSample, nextSample := u.nextSample,
    carrier := u.carrier, mode := u.mode }

/-- What stands from one cycle start, mark or table record to the next: the current table and its steering, the plan in
force, the image and the live copies, and the cycle timer but for its counter, the slots taken and the early hold. -/
structure Footing where
  current : Option Table
  steering : Option Steering
  plan : Option Plan
  image : Option (List ImageCell)
  live : List LiveCopy
  timer : CycleTimer
  deriving DecidableEq, Repr

/-- The footing of a state. -/
def State.footing (s : State) : Footing :=
  { current := s.form.current, steering := s.form.steering, plan := s.planner.inForce, image := s.chan.image,
    live := s.chan.live, timer := { s.timer with counter := 0, nextSlot := 0, earlyHold := false } }

/-- The commands that come from the lines, the contacts and the part's own timers. -/
def ofLinesAndClock : Instr → Bool
  | .identify | .status | .start | .stop | .restart | .setEndMode | .publish | .readImage | .readTable | .watch
  | .unwatch | .split | .splitCancel | .cabClaim | .cabRelease | .heading | .settingsRead | .settingsWrite
  | .settingsProtect | .unknown => false
  | .powerOn | .powerLoss _ | .restartTakesEffect _ | .storeOperationEnd _ => false
  | .frameReceived _ _ | .frameTimeout _ _ | .frameDropped _ _ | .transmitFrameEnd _ => false
  | .listenTimeout | .contactSample _ _ | .carrierChange _ _ | .markReceived _ _ _ | .badRecordReceived _ _ _
  | .foreignMarkTimeout _ | .foreignQuietTimeout _ | .rollRecordReceived _ _ _ | .petitionRecordReceived _ _ _
  | .channelRecordReceived _ _ _ | .waitingRecordSent _ | .generatedCycleStart | .switchMark | .armedReached
  | .splitSwitch | .yieldEnd | .armedTimeout | .principalJoinDeadline | .absorbedJoinDeadline | .silenceLimit
  | .workItemStart | .cellStart | .flywheelStart | .orphanEntry | .yieldSeekEntry | .coastingStart | .succession
  | .firstGeneratedMark | .seekDeadlineResume | .seekDeadlineOrphan | .enrollAttemptAdvance | .windowOpens => true

/-- The commands that may change what an end senses: samples, carrier changes, SET_END_MODE, START, STOP, and those that
put every block at its power-on values. -/
def changesSense : Instr → Bool
  | .contactSample _ _ | .carrierChange _ _ | .setEndMode | .start | .stop | .powerOn | .powerLoss _
  | .restartTakesEffect _ => true
  | .frameReceived _ _ | .frameTimeout _ _ | .frameDropped _ _ | .transmitFrameEnd _ | .unknown | .identify | .status
  | .restart | .publish | .readImage | .readTable | .watch | .unwatch | .split | .splitCancel | .cabClaim | .cabRelease
  | .heading | .settingsRead | .settingsWrite | .settingsProtect | .storeOperationEnd _ | .listenTimeout
  | .markReceived _ _ _ | .badRecordReceived _ _ _ | .foreignMarkTimeout _ | .foreignQuietTimeout _
  | .rollRecordReceived _ _ _ | .petitionRecordReceived _ _ _ | .channelRecordReceived _ _ _ | .waitingRecordSent _
  | .generatedCycleStart | .switchMark | .armedReached | .splitSwitch | .yieldEnd | .armedTimeout
  | .principalJoinDeadline | .absorbedJoinDeadline | .silenceLimit | .workItemStart | .cellStart | .flywheelStart
  | .orphanEntry | .yieldSeekEntry | .coastingStart | .succession | .firstGeneratedMark | .seekDeadlineResume
  | .seekDeadlineOrphan | .enrollAttemptAdvance | .windowOpens => false

/-- The commands between two cycle starts that bring no mark, no roll record and no channel record, and do not enter or
leave DETACHED. -/
def betweenStarts : Instr → Bool
  | .frameReceived _ _ | .frameTimeout _ _ | .frameDropped _ _ | .transmitFrameEnd _ | .unknown | .identify | .status
  | .restart | .setEndMode | .publish | .readImage | .readTable | .watch | .unwatch | .split | .splitCancel | .cabClaim
  | .cabRelease | .heading | .settingsRead | .settingsWrite | .settingsProtect | .storeOperationEnd _
  | .contactSample _ _ | .carrierChange _ _ | .badRecordReceived _ _ _ | .foreignMarkTimeout _ | .foreignQuietTimeout _
  | .petitionRecordReceived _ _ _ | .waitingRecordSent _ | .armedTimeout | .silenceLimit | .workItemStart | .cellStart
  | .enrollAttemptAdvance | .windowOpens => true
  | .powerOn | .powerLoss _ | .restartTakesEffect _ | .start | .stop | .listenTimeout | .markReceived _ _ _
  | .rollRecordReceived _ _ _ | .channelRecordReceived _ _ _ | .generatedCycleStart | .switchMark | .armedReached
  | .splitSwitch | .yieldEnd | .principalJoinDeadline | .absorbedJoinDeadline | .flywheelStart | .orphanEntry
  | .yieldSeekEntry | .coastingStart | .succession | .firstGeneratedMark | .seekDeadlineResume
  | .seekDeadlineOrphan => false

end Sys2Proof.Machine
end

