-- ==== Sys2Proof/Certificates/Slice0/Obligations.lean ====
section
/-! DEFINITION. The statements for the provers. "next t" is the state a command answers; `k` is the ticks that pass before
an event, `u` and `d` name the state at its instant. -/

open Sys2Proof Sys2Proof.Machine

/-! ## Steps, queues, invariants -/

/-- A step runs the command at the front of the queue on the state with the queue's rest.
The queue is the model's (DESIGN CHOICE, log 1, log 7). -/
def Obligations.StepRunsFrontCommand : Prop :=
  ∀ (c : Instr) (q : List Instr) (s : State), step { s with pending := c :: q } = exec c { s with pending := q }

/-- Every command answers a next state in every state, and none touches the queue of waiting commands.
That a command which is not due answers the state unchanged is the model's (DESIGN CHOICE, log 1). -/
def Obligations.CommandsGoOnAndKeepTheQueue : Prop :=
  ∀ (c : Instr) (s : State), ∃ t, exec c s = .next t ∧ t.pending = s.pending

/-- Every step keeps the car link at rest: it never leaves the transmit path idle with a frame to send (R176); notices wait
there between a served RESTART and the restart (R181). That no notice is on its way to the queue between steps is said of
the model's own field (DESIGN CHOICE, log 18). -/
def Obligations.LinkRestKept : Prop := ∀ s t : State, AtRest s → step s = .next t → AtRest t

/-- The frame of the commands of the lines, the contacts and the clock: from rest they leave the queue of commands, power,
the store with its snapshot, the watch list, the staging copies, the end modes, the receive path, the held frames, the
waiting reply and a served RESTART as they were. -/
def Obligations.LinesAndClockSpareTheRest : Prop :=
  ∀ (c : Instr) (s t : State), ofLinesAndClock c = true → AtRest s → exec c s = .next t → t.spared = s.spared

/-- The frame of the commands that `betweenStarts` names: each leaves the current table, its steering, the plan in force, the
image, the live copies, and the cycle timer but for its counter, the slots taken and the early hold as they were. Roll and
channel records run between two cycle starts as well and are not among them: a roll record replaces an entry of the current
table (R141), a channel record writes a cell of the image (R154). Nor are marks, and nothing is said of the pending and the
armed tables. -/
def Obligations.FootingStandsBetweenStarts : Prop :=
  ∀ (c : Instr) (s t : State), betweenStarts c = true → exec c s = .next t → t.footing = s.footing

/-- Contact state, contact filter, sampling instant, carrier and mode of each end change by samples, carrier changes,
SET_END_MODE, START, STOP and the power-on values only (R1, R3, R6, R22). -/
def Obligations.EndsSenseByTheirOwnCommands : Prop :=
  ∀ (c : Instr) (s t : State) (e : EndId), changesSense c = false → exec c s = .next t →
    (t.endUnit e).sense = (s.endUnit e).sense

/-- Every step keeps the capacities of the holding and of the watch list, and the eight outbound channels. -/
def Obligations.BuffersStayBounded : Prop :=
  ∀ s t : State, BuffersBounded s → step s = .next t → BuffersBounded t

/-- Reset: DETACHED, ends in bypass, timer IDLE, nothing held, link at rest, buffers bounded.
That reset is the part right after power-on, with a store never written, is the model's (DESIGN CHOICE, log 6). -/
def Obligations.ResetValues : Prop :=
  let s := State.reset
  AtRest s ∧ BuffersBounded s ∧ s.form.node = .detached ∧ s.form.current = none ∧ s.timer.lock = .idle
    ∧ s.timer.period = none ∧ s.planner.inForce = none ∧ s.pet.queue = [] ∧ s.pet.ownCab = false
    ∧ s.chan.image = none ∧ s.chan.watch = [] ∧ s.store.snapshot = none ∧ s.link.holding = []
    ∧ s.link.notices = [] ∧ s.link.number = 0
    ∧ ∀ e : EndId, s.condition e = .bypass ∧ (s.endUnit e).contact = .unknown ∧ (s.endUnit e).carrier = .absent
        ∧ (s.endUnit e).mode = .line ∧ (s.endUnit e).segregated = false ∧ (s.endUnit e).attempts = 0

/-! ## The planner -/

/-- No cell of a plan has two owners (R74 to R76). -/
def Obligations.PlanCellsHaveOneOwner : Prop :=
  ∀ (t : Table) (period : Nat), ((makePlan t period).cells.map fun c => (c.slot, c.index)).Nodup

/-- A table whose granted demand fits the round capacity has every cell of it placed (R69, R77). -/
def Obligations.FittingTableIsPlacedWhole : Prop :=
  ∀ (t : Table) (period : Nat), grantedDemand t.entries ≤ roundCapacity period t.size →
    (makePlan t period).cells = placeAll t.entries

/-- A table that passes the SAFETY test is granted rates that fit the round capacity (R71, R73). -/
def Obligations.GrantedRatesFit : Prop :=
  ∀ (period : Nat) (ens : List Entry), safetyDemand ens ≤ roundCapacity period ens.length →
    grantedDemand (grantRates period ens) ≤ roundCapacity period ens.length

/-! ## Records and frames -/

/-- A mark of fields in their ranges is a good record and is read back as it was made (R29, R32, R186, R187). -/
def Obligations.MarkReadsBack : Prop :=
  ∀ (m : MarkFields) (side : Side), m.ok = true →
    goodRecordOf kindMark (markRecord m side) = true ∧ decodeMark (markRecord m side) = some m
      ∧ recordHop (markRecord m side) = 0 ∧ recordSide (markRecord m side) = side

/-- A well-formed formation entry is read back as it was made (R49, R186). -/
def Obligations.EntryReadsBack : Prop :=
  ∀ en : Entry, en.position ≤ 16 → validTag en.tag = true → en.channels.length ≤ 8 →
    (∀ c ∈ en.channels, c.ratesOk = true ∧ c.requested ≠ .suspended) →
    (entryOctets en).length = 24 ∧ decodeEntry (entryOctets en) = some en

/-- The octets of a frame, arriving while the path hunts, bring that frame to the holding's tail, or with 4 held set
INPUT_OVERRUN (R174, R175, R188). A frame left unfinished for more than 2,000 ticks is dropped first (R174).
Dropped frames draw no reply and set no flag: a length above 200, a check that disagrees (of octets with no start octet
among them, so that hunting goes on to nothing), and a frame broken off by silence (R174).
The tick of the drop by silence is DEDUCED (log 57), and what a command's octets are is DEDUCED (log 56). -/
def Obligations.FramesHeldOrDropped : Prop :=
  (
    ∀ (s : State) (f : Frame) (k : Nat), s.powered = true → AtRest s → f.body.length ≤ 200 →
      s.link.rx = [] ∨ (∃ len : Octet, s.link.rx = [126, len] ∧ len.toNat ≤ 200 ∧ s.link.lastOctet + 2000 < s.now + k) →
      let t := s.octetsCame k 0
      (s.link.holding.length < 4 → exec (.frameReceived k (frameOctets f)) s =
          .next { t with link := { t.link with holding := s.link.holding ++ [f] } })
        ∧ (4 ≤ s.link.holding.length → exec (.frameReceived k (frameOctets f)) s =
          .next { t with link := { t.link with flags := { s.link.flags with inputOverrun := true } } }))
  ∧ (
    ∀ (s : State) (len : Octet) (k : Nat), s.powered = true → AtRest s → s.link.rx = [] →
      (200 < len.toNat → exec (.frameDropped k [126, len]) s = .next (s.octetsCame k 0))
        ∧ (len.toNat ≤ 200 → exec (.frameTimeout k [126, len]) s = .next (s.octetsCame k 2001)))
  ∧ (
    ∀ (s : State) (len : Octet) (k : Nat), s.powered = true → AtRest s → s.link.rx = [126, len] → len.toNat ≤ 200 →
      exec (.frameTimeout k []) s = .next { s.advance (s.link.lastOctet + 2001 - s.now) with
        link := { s.link with rx := [] } })
  ∧ (
    ∀ (s : State) (f : Frame) (c : BitVec 16) (k : Nat), s.powered = true → AtRest s → s.link.rx = [] →
      f.body.length ≤ 200 →
      let mid := [BitVec.ofNat 8 f.body.length, f.kind] ++ natOctets 2 f.tag.toNat ++ f.body
      let os := mid ++ natOctets 2 c.toNat
      c ≠ crc16 mid → 126 ∉ os → exec (.frameDropped k (126 :: os)) s = .next (s.octetsCame k 0))

/-- When the frame in progress ends, the waiting reply begins and its frame leaves the holding; else the oldest notice,
which leaves the queue; else the path is idle. A served RESTART holds notices back (R175, R176, R181). -/
def Obligations.FrameEndBeginsNext : Prop :=
  ∀ (s : State) (k : Nat), s.powered = true → s.outbox = [] → s.link.tx ≠ .idle →
    let u := s.advance k
    (∀ r, s.link.reply = some r → exec (.transmitFrameEnd k) s = .next { u with link := { u.link with
        tx := .reply r, line := r.octets, reply := none, holding := s.link.holding.tail } })
    ∧ (s.link.reply = none → s.link.restarting = true →
        exec (.transmitFrameEnd k) s = .next { u with link := { u.link with tx := .idle, line := [] } })
    ∧ (s.link.reply = none → s.link.restarting = false → s.link.notices = [] →
        exec (.transmitFrameEnd k) s = .next { u with link := { u.link with tx := .idle, line := [] } })
    ∧ (∀ n rest, s.link.reply = none → s.link.restarting = false → s.link.notices = n :: rest →
        exec (.transmitFrameEnd k) s =
          .next { u with link := { u.link with tx := .notice n, line := n.octets, notices := rest } })

/-- A notice that meets a full queue makes the oldest of another kind than CHANGE leave, sets EVENTS_LOST and joins the tail;
so does a CHANGE of a cell none of whose CHANGE notices waits. A CHANGE of a cell whose CHANGE waits replaces it in place,
and nothing is lost (R162, R184). -/
def Obligations.FullNoticeQueue : Prop :=
  ∀ (s : State) (b : NoticeBody), 32 ≤ s.link.notices.length →
    let t := s.joinNotice b
    let new : Notice := { number := s.link.number, time := s.capture, body := b }
    let changes := fun (ns : List Notice) => ns.filter fun n => n.body.isChange
    let others := fun (ns : List Notice) => ns.filter fun n => !n.body.isChange
    ((∃ n ∈ s.link.notices, n.body.isChange = false) →
      b.isChange = false ∨ (∀ n ∈ s.link.notices, n.body.changeOf ≠ b.changeOf) →
      t.link.notices.length = s.link.notices.length ∧ t.link.flags = { s.link.flags with eventsLost := true }
        ∧ t.link.number = s.link.number + 1 ∧ t.link.notices.getLast? = some new
        ∧ others t.link.notices = (others s.link.notices).tail ++ (if b.isChange then [] else [new])
        ∧ changes t.link.notices = changes s.link.notices ++ (if b.isChange then [new] else []))
    ∧ (b.isChange = true → (∃ n ∈ s.link.notices, n.body.changeOf = b.changeOf) →
      t.link.flags = s.link.flags ∧ t.link.number = s.link.number
        ∧ t.link.notices = s.link.notices.map fun n =>
            if n.body.changeOf = b.changeOf then { n with time := s.capture, body := b } else n)

/-! ## Requests -/

/-- A body that is not laid out as its kind asks is replied MALFORMED and has no effect (R177). A frame of no
request kind is replied UNKNOWN and has no effect (R174, R177).
What the layout asks where the manual's words leave it open is DEDUCED (log 31), as is the kind of some UNKNOWN replies a free value (DESIGN CHOICE, log 36). -/
def Obligations.UnservedKindsAndBodies : Prop :=
  (
    ∀ (s : State) (f : Frame),
      let bad : Host.Outcome State Fault Refusal := .next (s.replied f .malformed .empty)
      (parseNothing f.body = none →
        (Ready s f reqIdentify → exec .identify s = bad) ∧ (Ready s f reqStatus → exec .status s = bad)
        ∧ (Ready s f reqStart → exec .start s = bad) ∧ (Ready s f reqStop → exec .stop s = bad)
        ∧ (Ready s f reqRestart → exec .restart s = bad) ∧ (Ready s f reqCabClaim → exec .cabClaim s = bad)
        ∧ (Ready s f reqCabRelease → exec .cabRelease s = bad))
      ∧ (parseEndMode f.body = none → Ready s f reqSetEndMode → exec .setEndMode s = bad)
      ∧ (parsePublish f.body = none → Ready s f reqPublish → exec .publish s = bad)
      ∧ (parseReadImage f.body = none → Ready s f reqReadImage → exec .readImage s = bad)
      ∧ (parseReadTable f.body = none → Ready s f reqReadTable → exec .readTable s = bad)
      ∧ (parseWatch f.body = none → (Ready s f reqWatch → exec .watch s = bad)
        ∧ (Ready s f reqUnwatch → exec .unwatch s = bad))
      ∧ (parseJoint f.body = none → (Ready s f reqSplit → exec .split s = bad)
        ∧ (Ready s f reqSplitCancel → exec .splitCancel s = bad))
      ∧ (parseHeading f.body = none → Ready s f reqHeading → exec .heading s = bad)
      ∧ (parseSettingsRead f.body = none → Ready s f reqSettingsRead → exec .settingsRead s = bad)
      ∧ (parseSettingsWrite f.body = none → Ready s f reqSettingsWrite → exec .settingsWrite s = bad)
      ∧ (parseSettingsProtect f.body = none → Ready s f reqSettingsProtect → exec .settingsProtect s = bad))
  ∧ (
    ∀ (s : State) (f : Frame), Ready s f f.kind → isRequest f.kind = false →
      exec .unknown s = .next (s.replied f .unknown .empty))

/-- IDENTIFY is replied DONE in every node state and during a store operation; it changes nothing (R178). -/
def Obligations.IdentifyReplies : Prop :=
  ∀ (s : State) (f : Frame), Ready s f reqIdentify → f.body = [] →
    exec .identify s = .next (s.replied f .done (.identify Config.familyCode Config.partCode Config.revision
      (if s.store.identity.good then some s.store.identity.contents.tag else none) s.form.node))

/-- STATUS copies the sticky flags into its reply and clears them, and changes nothing else (R179, R180). -/
def Obligations.StatusReportsAndClears : Prop :=
  ∀ (s : State) (f : Frame), Ready s f reqStatus → f.body = [] →
    exec .status s = .next (({ s with link := { s.link with flags := StickyFlags.clear } } : State).replied f .done
      (.status s.statusReport)) ∧ s.statusReport.flags = s.link.flags ∧ s.statusReport.node = s.form.node

/-- START taken in DETACHED: snapshot, LISTEN, contacts UNKNOWN, first sample I ticks later; staging, watch list,
end modes and queued notices stay (R1, R22, R44, R163, R172). START refused: WRONG_STATE out of DETACHED, then BUSY,
then NOT_CONFIGURED; nothing changes (R44, R172, R181). -/
def Obligations.StartJudged : Prop :=
  (
    ∀ (s : State) (f : Frame), Ready s f reqStart → f.body = [] → s.form.node = .detached → s.store.op = none →
      s.store.identity.good = true →
      let sv := if s.store.service.good then s.store.service.contents else Service.defaults
      ∃ t, exec .start s = .next t ∧ t.form.node = .listen ∧ t.form.listenTimer = 0 ∧ t.form.listenCandidate = none
        ∧ t.form.current = none ∧ t.timer = CycleTimer.initial
        ∧ t.store = { s.store with snapshot := some { identity := s.store.identity.contents, service := sv } }
        ∧ (∀ e : EndId, (t.endUnit e).contact = .unknown ∧ (t.endUnit e).filterCount = 0
            ∧ (t.endUnit e).nextSample = some (s.now + sv.sampleInterval) ∧ (t.endUnit e).mode = (s.endUnit e).mode
            ∧ (t.endUnit e).carrier = (s.endUnit e).carrier)
        ∧ t.chan.out = s.chan.out ∧ t.chan.watch = s.chan.watch ∧ t.chan.image = none
        ∧ t.link.notices = s.link.notices
        ∧ t.link.flags.serviceDefaulted = (s.link.flags.serviceDefaulted || !s.store.service.good))
  ∧ (
    ∀ (s : State) (f : Frame), Ready s f reqStart → f.body = [] →
      (s.form.node ≠ .detached → exec .start s = .next (s.replied f .wrongState .empty))
      ∧ (s.form.node = .detached → s.store.op ≠ none → exec .start s = .next (s.replied f .busy .empty))
      ∧ (s.form.node = .detached → s.store.op = none → s.store.identity.good = false →
          exec .start s = .next (s.replied f .notConfigured .empty)))

/-- STOP: DETACHED from any other node state, tables, plans, wants and image gone, contact, carrier, modes, staging,
watch list, notices, number, flags and store kept; WRONG_STATE in DETACHED (R22, R43, R48, R68, R84, R101, R163, R181). -/
def Obligations.StopEntersDetached : Prop :=
  ∀ (s : State) (f : Frame), Ready s f reqStop → f.body = [] →
    (s.form.node = .detached → exec .stop s = .next (s.replied f .wrongState .empty))
    ∧ (s.form.node ≠ .detached → ∃ t, exec .stop s = .next t ∧ t.form = FormationUnit.initial
      ∧ t.timer = CycleTimer.initial ∧ t.planner = Planner.initial ∧ t.pet = PetitionUnit.initial
      ∧ t.chan.out = s.chan.out ∧ t.chan.watch = s.chan.watch ∧ t.chan.image = none ∧ t.chan.live = []
      ∧ t.store = s.store ∧ t.link.notices = s.link.notices ∧ t.link.number = s.link.number
      ∧ t.link.flags = s.link.flags
      ∧ ∀ e : EndId, (t.endUnit e).contact = (s.endUnit e).contact ∧ (t.endUnit e).nextSample = none
        ∧ (t.endUnit e).carrier = (s.endUnit e).carrier ∧ (t.endUnit e).mode = (s.endUnit e).mode
        ∧ (t.endUnit e).segregated = false ∧ (t.endUnit e).attempts = 0 ∧ (t.endUnit e).phase = .quiet
        ∧ (t.endUnit e).sending = none ∧ (t.endUnit e).waiting = none ∧ (t.endUnit e).coming = none)

/-- RESTART is replied DONE in every node state; it takes effect once its reply has been sent whole and no store
operation is in progress, with every block at its power-on values (R181). -/
def Obligations.RestartServedThenTaken : Prop :=
  ∀ (s : State) (f : Frame) (k : Nat),
    (Ready s f reqRestart → f.body = [] →
      exec .restart s = .next (({ s with link := { s.link with restarting := true } } : State).replied f .done .empty))
    ∧ (s.powered = true → s.link.restarting = true → s.link.reply = none → s.link.tx = .idle → s.store.op = none →
      ∃ t, exec (.restartTakesEffect k) s = .next t ∧ t.powered = true ∧ t.form = FormationUnit.initial
        ∧ t.e1 = EndUnit.initial ∧ t.e2 = EndUnit.initial ∧ t.timer = CycleTimer.initial
        ∧ t.planner = Planner.initial ∧ t.pet = PetitionUnit.initial ∧ t.chan = ChannelUnit.initial
        ∧ t.link = CarLink.initial (!s.store.service.intact) ∧ t.store.snapshot = none
        ∧ t.store.identity.good = s.store.identity.intact ∧ t.store.service.good = s.store.service.intact)

/-- POWER_ON: every block at its power-on values, each area GOOD exactly if it agrees with its check (R164, R185).
Power lost over a store operation: the next check finds its area BAD, and the other area as it was (R165).
That power may come to a powered part is the model's (DESIGN CHOICE, log 1). -/
def Obligations.PowerComesAndGoes : Prop :=
  (
    ∀ s : State, ∃ t, exec .powerOn s = .next t ∧ t.powered = true ∧ t.form = FormationUnit.initial
      ∧ t.e1 = EndUnit.initial ∧ t.e2 = EndUnit.initial ∧ t.timer = CycleTimer.initial ∧ t.planner = Planner.initial
      ∧ t.pet = PetitionUnit.initial ∧ t.chan = ChannelUnit.initial ∧ t.store.snapshot = none ∧ t.store.op = none
      ∧ t.link = CarLink.initial (!t.store.service.good)
      ∧ (s.store.op = none → t.store.identity = { s.store.identity with good := s.store.identity.intact }
          ∧ t.store.service = { s.store.service with good := s.store.service.intact }))
  ∧ (
    ∀ (s : State) (op : StoreOp) (k : Nat), s.powered = true → s.store.op = some op →
      ∃ t u, exec (.powerLoss k) s = .next t ∧ t.powered = false ∧ exec .powerOn t = .next u ∧ u.store.op = none
        ∧ (op.area = .identity → u.store.identity.good = false ∧ u.store.service.good = s.store.service.intact)
        ∧ (op.area = .service → u.store.service.good = false ∧ u.store.identity.good = s.store.identity.intact))

/-- SET_END_MODE: the present mode again changes nothing; another mode is set, and the carrier is ABSENT with both
counts cleared (R3, R6). Where it was PRESENT, ISOLATED is a carrier loss: what it sets going carries the cause ISOLATED
and the capture of this instant (R13, R139, R143, R144). -/
def Obligations.EndModeSet : Prop :=
  ∀ (s : State) (f : Frame) (e : EndId) (m : EndMode), Ready s f reqSetEndMode → parseEndMode f.body = some (e, m) →
    ((s.endUnit e).mode = m → exec .setEndMode s = .next (s.replied f .done .empty))
    ∧ ((s.endUnit e).mode ≠ m → ∃ t, exec .setEndMode s = .next t ∧ (t.endUnit e).mode = m
      ∧ (t.endUnit e).carrier = .absent ∧ (t.endUnit e).activeCount = 0 ∧ (t.endUnit e).silentCount = 0
      ∧ (t.endUnit e).contact = (s.endUnit e).contact ∧ (t.endUnit e.other).mode = (s.endUnit e.other).mode
      ∧ (m = .isolated → (s.endUnit e).carrier = .present → LossTold s t e .isolated s.capture))

/-- PUBLISH writes the staging copy, padded with zero octets, and sets its written mark; an index not below the channel
count is refused BAD_ARGUMENT (R149). -/
def Obligations.PublishWritesStaging : Prop :=
  ∀ (s : State) (f : Frame) (ch : Octet) (p : List Octet), Ready s f reqPublish → f.body = ch :: p → p.length ≤ 32 →
    let count := match s.store.snapshot with
      | some sn => sn.service.channels.length
      | none => (if s.store.service.good then s.store.service.contents else Service.defaults).channels.length
    (ch.toNat < count → exec .publish s = .next (({ s with chan := { s.chan with
        out := s.chan.out.set ch.toNat { s.chan.out.getD ch.toNat OutChannel.initial with
          staging := p ++ List.replicate (32 - p.length) 0, written := true } } } : State).replied f .done .empty))
    ∧ (count ≤ ch.toNat → exec .publish s = .next (s.replied f .badArgument .empty))

/-- READ_TABLE: the current table in LEAD, MEMBER, SEEK and ORPHAN, the heard one in APPLICANT with entries not yet gathered
absent; BAD_ARGUMENT out of range, NOT_FOUND without a table and beyond its size. READ_IMAGE: the cell whole with the
train time of the read, NOT_FOUND, or BAD_ARGUMENT. Neither changes anything (R160, R182).
That the heard table is the CURRENT assembly is DEDUCED (log 12). -/
def Obligations.ImageAndTableRead : Prop :=
  (
    ∀ (s : State) (f : Frame) (c : CellName), Ready s f reqReadImage → parseReadImage f.body = some c →
      let ok := match c with
        | .byTag t ch => t ≠ 0 ∧ t ≠ BitVec.allOnes 48 ∧ ch ≤ 7
        | .byPosition p ch => 1 ≤ p ∧ p ≤ 16 ∧ ch ≤ 7
      (¬ ok → exec .readImage s = .next (s.replied f .badArgument .empty))
      ∧ (ok → s.findCell c = none → exec .readImage s = .next (s.replied f .notFound .empty))
      ∧ (∀ x, ok → s.findCell c = some x →
          exec .readImage s = .next (s.replied f .done (.cell (x.report (some s.trainTime))))))
  ∧ (
    ∀ (s : State) (f : Frame) (i c : Octet), Ready s f reqReadTable → f.body = [i, c] →
      let ok := 1 ≤ c.toNat ∧ c.toNat ≤ 7 ∧ 1 ≤ i.toNat ∧ i.toNat ≤ 16
      let holds := s.form.node = .lead ∨ s.form.node = .member ∨ s.form.node = .seek ∨ s.form.node = .orphan
      let missing := exec .readTable s = .next (s.replied f .notFound .empty)
      let read := fun (heard : Bool) (ep : Epoch) (size : Nat) (ens : List Entry) => exec .readTable s = .next
        (if size < i.toNat then s.replied f .notFound .empty
          else s.replied f .done (.table heard ep size i.toNat
            ((List.range (min (i.toNat + c.toNat - 1) size + 1 - i.toNat)).map fun k => entryAt ens (i.toNat + k))))
      (¬ ok → exec .readTable s = .next (s.replied f .badArgument .empty))
      ∧ (ok → s.form.node = .detached ∨ s.form.node = .listen → missing)
      ∧ (ok → holds → s.form.current = none → missing)
      ∧ (∀ t, ok → holds → s.form.current = some t → read false t.epoch t.size t.entries)
      ∧ (ok → s.form.node = .applicant → s.form.asmCurrent = none → missing)
      ∧ (∀ a, ok → s.form.node = .applicant → s.form.asmCurrent = some a → read true a.epoch a.size a.entries))

/-- WATCH: BAD_ARGUMENT, an entry held already, FULL, or the entry at the tail (R161). UNWATCH: the entry is
removed, and its CHANGE notice withdrawn from the queue; an absent entry changes nothing (R161). -/
def Obligations.WatchListEdited : Prop :=
  (
    ∀ (s : State) (f : Frame) (w : Tag × Nat), Ready s f reqWatch → parseWatch f.body = some w →
      let ok := w.2 ≤ 7 ∧ validTag w.1 = true
      (¬ ok → exec .watch s = .next (s.replied f .badArgument .empty))
      ∧ (ok → w ∈ s.chan.watch → exec .watch s = .next (s.replied f .done .empty))
      ∧ (ok → w ∉ s.chan.watch → 16 ≤ s.chan.watch.length → exec .watch s = .next (s.replied f .full .empty))
      ∧ (ok → w ∉ s.chan.watch → s.chan.watch.length < 16 → exec .watch s =
          .next (({ s with chan := { s.chan with watch := s.chan.watch ++ [w] } } : State).replied f .done .empty)))
  ∧ (
    ∀ (s : State) (f : Frame) (w : Tag × Nat), Ready s f reqUnwatch → parseWatch f.body = some w →
      (w ∉ s.chan.watch → exec .unwatch s = .next (s.replied f .done .empty))
      ∧ (w ∈ s.chan.watch → ∃ t, exec .unwatch s = .next t ∧ w ∉ t.chan.watch
        ∧ (∀ x, x ≠ w → (x ∈ t.chan.watch ↔ x ∈ s.chan.watch))
        ∧ (∀ n, n ∈ t.link.notices ↔ n ∈ s.link.notices ∧ n.body.changeOf ≠ some w)
        ∧ t.link.number = s.link.number ∧ t.chan.image = s.chan.image ∧ t.chan.out = s.chan.out
        ∧ t.form = s.form ∧ t.timer = s.timer ∧ t.pet = s.pet))

/-- The five requests for a want are refused WRONG_STATE out of LEAD and MEMBER, and nothing is queued; SPLIT and
SPLIT_CANCEL of a joint out of 1 to 15 are BAD_ARGUMENT (R183). -/
def Obligations.WantsRefused : Prop :=
  ∀ (s : State) (f : Frame),
    let no : Host.Outcome State Fault Refusal := .next (s.replied f .wrongState .empty)
    (s.form.node ≠ .lead → s.form.node ≠ .member →
      (Ready s f reqCabClaim → f.body = [] → exec .cabClaim s = no)
      ∧ (Ready s f reqCabRelease → f.body = [] → exec .cabRelease s = no)
      ∧ (∀ d, Ready s f reqHeading → parseHeading f.body = some d → exec .heading s = no)
      ∧ (∀ p, Ready s f reqSplit → f.body = [p] → exec .split s = no)
      ∧ (∀ p, Ready s f reqSplitCancel → f.body = [p] → exec .splitCancel s = no))
    ∧ (∀ p : Octet, s.form.node = .lead ∨ s.form.node = .member → p.toNat = 0 ∨ 15 < p.toNat → f.body = [p] →
      (Ready s f reqSplit → exec .split s = .next (s.replied f .badArgument .empty))
      ∧ (Ready s f reqSplitCancel → exec .splitCancel s = .next (s.replied f .badArgument .empty)))

/-- In MEMBER each request for a want is ACCEPTED and queues its want, in place of one of its kind; SPLIT and
SPLIT_CANCEL hold the tags either side of the joint (R85, R129, R183).
A SPLIT of a joint that the current table does not have is ACCEPTED, removed at once and noticed BAD_JOINT (R129); that a
SPLIT that waited before is gone with it is DEDUCED (log 39). -/
def Obligations.MemberQueuesWants : Prop :=
  (
    ∀ (s : State) (f : Frame), s.form.node = .member →
      let queued := fun (w : Want) =>
        ({ s with pet := { s.pet with queue := putWant w s.pet.queue } } : State).replied f .accepted .empty
      (Ready s f reqCabClaim → f.body = [] → exec .cabClaim s = .next (queued .cabClaim))
      ∧ (Ready s f reqCabRelease → f.body = [] → exec .cabRelease s = .next (queued .cabRelease))
      ∧ (∀ d, Ready s f reqHeading → parseHeading f.body = some d → exec .heading s = .next (queued (.heading d)))
      ∧ (∀ (p : Octet) (a b : Entry), 1 ≤ p.toNat → p.toNat ≤ 15 → f.body = [p] →
          entryAt s.entries p.toNat = some a → entryAt s.entries (p.toNat + 1) = some b →
          (Ready s f reqSplit → exec .split s = .next (queued (.split p.toNat a.tag b.tag)))
          ∧ (Ready s f reqSplitCancel → exec .splitCancel s = .next (queued (.splitCancel p.toNat a.tag b.tag)))))
  ∧ (
    ∀ (s : State) (f : Frame) (p : Octet), Ready s f reqSplit → f.body = [p] → 1 ≤ p.toNat → p.toNat ≤ 15 →
      s.form.node = .member → entryAt s.entries (p.toNat + 1) = none →
      ∃ t, exec .split s = .next t ∧ Replies t f .accepted .empty ∧ t.wantOf .split none = none
        ∧ Queues t (.splitOutcome .split (.answer .badJoint none)) ∧ t.form = s.form ∧ t.timer = s.timer)

/-- A leader's own CAB_CLAIM is offered as it is queued: with a cab fitted and no holder it is GRANTED at once, with
heading NONE (R91, R97). -/
def Obligations.LeaderClaimsItsCab : Prop :=
  ∀ (s : State) (f : Frame), Ready s f reqCabClaim → f.body = [] → s.form.node = .lead →
    s.ownEntry.any Entry.cab = true → s.pet.holder = none → s.pet.answers.length ≤ 16 →
    ∃ t, exec .cabClaim s = .next t ∧ t.pet.holder = some s.ownTag ∧ t.pet.cabHeading = .none
      ∧ t.wantOf .cabClaim none = none ∧ t.pet.answers = s.pet.answers ∧ Queues t (.cab .granted)
      ∧ t.form = s.form ∧ t.timer = s.timer

/-! ## The store -/

/-- SETTINGS_READ: BUSY during a store operation; STORED gives condition, protect flag as it reads and values, SNAPSHOT
the snapshot's values or none (R164 to R166). -/
def Obligations.SettingsReadReplies : Prop :=
  ∀ (s : State) (f : Frame) (a : AreaId) (snap : Bool), Ready s f reqSettingsRead →
    parseSettingsRead f.body = some (a, snap) →
    let idn := s.store.identity
    let svc := s.store.service
    (s.store.op ≠ none → exec .settingsRead s = .next (s.replied f .busy .empty))
    ∧ (s.store.op = none → exec .settingsRead s = .next (s.replied f .done (match a, snap with
        | .identity, false => .storedIdentity idn.good (idn.good && idn.protect)
            (if idn.good then some idn.contents else none)
        | .service, false => .storedService (!svc.good) (svc.good && svc.protect)
            (if svc.good then svc.contents else Service.defaults)
        | .identity, true => .snapshotIdentity (s.store.snapshot.map Snapshot.identity)
        | .service, true => .snapshotService (s.store.snapshot.map Snapshot.service))))

/-- SETTINGS_WRITE is judged in the order of the manual's table; an accepted write begins a store operation and changes neither
area nor snapshot, and its reply carries the contents it leaves, with the area's protect flag (R165, R167). -/
def Obligations.SettingsWriteJudged : Prop :=
  ∀ (s : State) (f : Frame) (a : AreaId) (fs : List NamedField), Ready s f reqSettingsWrite →
    parseSettingsWrite f.body = some (a, fs) →
    let begun := fun (c : StoreContents) =>
      ({ s with store := { s.store with op := some { kind := .write, contents := c, begun := s.now } } } : State)
    (s.store.op ≠ none → exec .settingsWrite s = .next (s.replied f .busy .empty))
    ∧ (s.store.op = none → s.store.readProtect a = true →
        exec .settingsWrite s = .next (s.replied f .protected_ .empty))
    ∧ (s.store.op = none → s.store.readProtect a = false → a = .identity → s.form.node ≠ .detached →
        exec .settingsWrite s = .next (s.replied f .wrongState .empty))
    ∧ (s.store.op = none → s.store.readProtect a = false → a = .identity → s.form.node = .detached →
        exec .settingsWrite s = .next (match writeIdentity s.store.readIdentity fs with
          | none => s.replied f .badArgument .empty
          | some c => (begun (.identity c false)).replied f .accepted (.writtenIdentity c false)))
    ∧ (s.store.op = none → s.store.readProtect a = false → a = .service →
        exec .settingsWrite s = .next (match writeService s.store.readService fs with
          | none => s.replied f .badArgument .empty
          | some c => (begun (.service c false)).replied f .accepted (.writtenService c false (serviceMarkers fs))))

/-- A written period is rounded down to a multiple of 100 and held from 2,000 to 20,000; a written sample interval becomes
the largest member not above it, or 250; every other numeric setting is clamped to its range, and one that is not named is
kept (R167, R168). -/
def Obligations.SettingsClamped : Prop :=
  (∀ v : Nat, 2000 ≤ clampPeriod v ∧ clampPeriod v ≤ 20000 ∧ clampPeriod v % 100 = 0
    ∧ (2000 ≤ v → v ≤ 20000 → clampPeriod v ≤ v ∧ v < clampPeriod v + 100)
    ∧ (v < 2000 → clampPeriod v = 2000) ∧ (20000 < v → clampPeriod v = 20000))
  ∧ (∀ v : Nat, clampInterval v ∈ [250, 1000, 2000, 4000] ∧ (250 ≤ v → clampInterval v ≤ v)
    ∧ (∀ m ∈ [250, 1000, 2000, 4000], m ≤ v → m ≤ clampInterval v) ∧ (v < 250 → clampInterval v = 250))
  ∧ (∀ (old sv : Service) (fs : List NamedField), writeService old fs = some sv →
    let stored := fun (code lo hi kept : Nat) (now : Nat) => now = match numberOf fs code with
      | some v => if v < lo then lo else if hi < v then hi else v
      | none => kept
    (sv.period = match numberOf fs 16 with
      | some v => clampPeriod v
      | none => old.period)
    ∧ (sv.sampleInterval = match numberOf fs 21 with
      | some v => clampInterval v
      | none => old.sampleInterval)
    ∧ stored 17 2 50 old.tolerance sv.tolerance ∧ stored 18 2 16 old.silenceLimit sv.silenceLimit
    ∧ stored 19 2 16 old.formationLimit sv.formationLimit ∧ stored 20 1 15 old.staleLimit sv.staleLimit
    ∧ stored 22 2 15 old.qualifyCount sv.qualifyCount ∧ stored 23 10 250 old.armedTimeout sv.armedTimeout)

/-- SETTINGS_PROTECT: BUSY; the flag as it reads, DONE without operation; set by an operation; cleared by one only in
DETACHED with both contacts OPEN, else WRONG_STATE; a BAD IDENTITY cannot be protected (R165, R171). -/
def Obligations.SettingsProtectJudged : Prop :=
  ∀ (s : State) (f : Frame) (a : AreaId) (on : Bool), Ready s f reqSettingsProtect →
    parseSettingsProtect f.body = some (a, on) →
    let begun := fun (c : StoreContents) =>
      (({ s with store := { s.store with op := some { kind := .protect, contents := c, begun := s.now } } } : State).replied
        f .done .empty)
    (s.store.op ≠ none → exec .settingsProtect s = .next (s.replied f .busy .empty))
    ∧ (s.store.op = none → s.store.readProtect a = on → exec .settingsProtect s = .next (s.replied f .done .empty))
    ∧ (s.store.op = none → s.store.readProtect a = false → on = true → a = .service →
        exec .settingsProtect s = .next (begun (.service s.store.readService true)))
    ∧ (s.store.op = none → s.store.readProtect a = false → on = true → a = .identity →
        exec .settingsProtect s = .next (if s.store.identity.good then begun (.identity s.store.identity.contents true)
          else s.replied f .badArgument .empty))
    ∧ (s.store.op = none → s.store.readProtect a = true → on = false →
        exec .settingsProtect s = .next (
          if s.form.node = .detached ∧ s.e1.contact = .opened ∧ s.e2.contact = .opened then
            (match a with
              | .identity => begun (.identity s.store.identity.contents false)
              | .service => begun (.service s.store.service.contents false))
          else s.replied f .wrongState .empty))

/-- STORE_OPERATION_END: the contents are the area's, GOOD and in agreement with the check, the other area, the snapshot
and SERVICE_DEFAULTED as they were, and STORE_DONE is queued (R165, R170).
When the operation ends is the command's (DESIGN CHOICE, log 5). -/
def Obligations.StoreOperationCompletes : Prop :=
  ∀ (s : State) (op : StoreOp) (k : Nat), s.powered = true → s.outbox = [] → s.store.op = some op →
    ∃ t, exec (.storeOperationEnd k) s = .next t ∧ t.store.op = none ∧ t.store.snapshot = s.store.snapshot
      ∧ (∀ c p, op.contents = .identity c p → t.store.service = s.store.service
          ∧ t.store.identity = { contents := c, protect := p, intact := true, good := true })
      ∧ (∀ c p, op.contents = .service c p → t.store.identity = s.store.identity
          ∧ t.store.service = { contents := c, protect := p, intact := true, good := true })
      ∧ Queues t (.storeDone op.area op.kind .done) ∧ t.chan = s.chan ∧ t.planner = s.planner
      ∧ t.link.flags.serviceDefaulted = s.link.flags.serviceDefaulted

/-! ## Ends -/

/-- CONTACT_SAMPLE: a level equal to the contact state clears the count; another level raises it, restarts it at 1 where
it differs from the sample before, and qualifies at Q; the next sample is I ticks later (R1, R7, R15). A qualification
queues END_EVENT with its capture, and for OPEN at a fixed end FIXED_OPENED (R2, R4). A qualified OPEN queues a BREAK at
an inner end that is not upstream, with cause ISOLATED or OPENED and the capture, and at the upstream end takes the
designated B leader into LEAD (R13, R139). That a designated B leader in LEAD before its first mark queues a BREAK as
any leader does is the model's (DESIGN CHOICE, log 74). -/
def Obligations.ContactIsFiltered : Prop :=
  ∀ (s : State) (e : EndId) (closed : Bool) (n : Nat), s.powered = true → (s.endUnit e).nextSample = some n →
    let u := s.endUnit e
    let level : ContactState := if closed then .closed else .opened
    let count := if u.lastSample = some (!closed) then 1 else u.filterCount + 1
    ∃ t, exec (.contactSample e closed) s = .next t
      ∧ (t.endUnit e).nextSample = some (n + s.settings.sampleInterval) ∧ (t.endUnit e).lastSample = some closed
      ∧ (u.contact = level → (t.endUnit e).contact = level ∧ (t.endUnit e).filterCount = 0)
      ∧ (u.contact ≠ level → count < s.settings.qualifyCount →
          (t.endUnit e).contact = u.contact ∧ (t.endUnit e).filterCount = count)
      ∧ (u.contact ≠ level → s.settings.qualifyCount ≤ count →
          (t.endUnit e).contact = level ∧ (t.endUnit e).filterCount = 0
          ∧ (closed = false → (t.endUnit e).segregated = false ∧ (t.endUnit e).attempts = 0
            ∧ (t.endUnit e).phase = .quiet)
          ∧ (closed = false →
            EndEventTold s t e (if u.mode = .isolated then .isolated else .opened) (s.advanceTo n).capture)
          ∧ (AtRest s → s.pet.queue = [] → s.link.notices.length ≤ 30 →
            Queues t (.endEvent e (.contact level) (s.advanceTo n).capture)
              ∧ (closed = false → s.fixedEnd e = true → Queues t (.fixedOpened e (s.advanceTo n).capture))))

/-- CARRIER_CHANGE: ABSENT to PRESENT and PRESENT to ABSENT; in DETACHED no notice; else a carrier that appears, and one
that is lost, is noticed with its capture (R3, R4). It takes place only where 100 active, or 200 silent, ticks can have
passed since the last tick known to be otherwise (R3). A loss queues a BREAK at an inner end that is not upstream, with
its cause; at the upstream end it makes a MEMBER's fast-path mark, takes an ORPHAN into LEAD by the fast path, and the
designated B leader with table B (R13, R139, R143, R144). Which ticks those are is the model's, and that the command
stands at the change (DESIGN CHOICE, log 26), and that a designated B leader in LEAD before its first mark queues a
BREAK as any leader does (DESIGN CHOICE, log 74). -/
def Obligations.CarrierFollowsTheLine : Prop :=
  ∀ (s : State) (e : EndId) (k : Nat), s.powered = true → AtRest s → (s.endUnit e).mode = .line →
    let free := ((s.advance k).endUnit e).freeTicks
    let due := ((s.endUnit e).carrier = .absent ∧ 100 ≤ free) ∨ ((s.endUnit e).carrier = .present ∧ 200 ≤ free)
    (¬ due → exec (.carrierChange k e) s = .next s)
    ∧ (due → ∃ t, exec (.carrierChange k e) s = .next t ∧ (t.endUnit e).freeTicks = 0
      ∧ ((s.endUnit e).carrier = .absent → (t.endUnit e).carrier = .present
        ∧ (s.form.node ≠ .detached → Queues t (.endEvent e (.carrier .present) (s.advance k).capture)))
      ∧ ((s.endUnit e).carrier = .present → (t.endUnit e).carrier = .absent ∧ (t.endUnit e).phase = .quiet
        ∧ LossTold s t e (if (s.endUnit e).contact = .opened then .opened else .line) (s.advance k).capture
        ∧ (s.form.node ≠ .detached → s.pet.queue = [] →
          Queues t (.endEvent e (.carrier .absent) (s.advance k).capture)))
      ∧ (s.form.node = .detached → t.link = s.link ∧ t.pet = (s.advance k).pet ∧ t.form = (s.advance k).form))

/-- In DETACHED each of the four line records is handed to no block: it is ready to leave at the other end 4 ticks after its
first octet, hop raised and check made anew, and leaves then from a free transmitter (R8, R10).
That the command stands at the record's first octet is the model's (DESIGN CHOICE, log 47). -/
def Obligations.DetachedPassesRecordsThrough : Prop :=
  ∀ (s : State) (e : EndId) (os : List Octet) (k : Nat), s.powered = true → AtRest s → s.form.node = .detached →
    s.form.applicant = none → s.e1.mode = .line → s.e2.mode = .line →
    let u := s.advance k
    let copy : TxRecord := { octets := relayCopy os, heard := some (s.now + k, s.now + k + os.length) }
    let through := fun (c : Instr) => ∃ t, exec c s = .next t ∧ t.form = u.form ∧ t.timer = u.timer ∧ t.pet = u.pet
      ∧ t.chan = s.chan ∧ t.planner = s.planner ∧ t.link = s.link ∧ t.store = s.store
      ∧ (t.endUnit e.other).coming = some (s.now + k + 4, copy)
      ∧ ((u.endUnit e.other).sending = none → ((t.advance 4).endUnit e.other).sending =
          some { record := copy, ends := s.now + k + 4 + (relayCopy os).length })
    (goodRecordOf kindMark os = true → through (.markReceived k e os))
    ∧ (goodRecordOf kindRoll os = true → through (.rollRecordReceived k e os))
    ∧ (goodRecordOf kindPetition os = true → through (.petitionRecordReceived k e os))
    ∧ (goodRecordOf kindChannel os = true → through (.channelRecordReceived k e os))

/-- BAD_RECORD_RECEIVED: LINE_ERRORS of the end is set, no other flag, and the record reaches no block (R12, R187).
That a SEGREGATED end sets the flag too is DEDUCED (log 50). -/
def Obligations.BadRecordSetsLineErrors : Prop :=
  ∀ (s : State) (e : EndId) (os : List Octet) (k : Nat), s.powered = true → AtRest s → badRecord os = true →
    (s.endUnit e).mode = .line →
    let u := s.advance k
    let fl := s.link.flags
    ∃ t, exec (.badRecordReceived k e os) s = .next t ∧ t.form = u.form ∧ t.timer = u.timer ∧ t.pet = u.pet
      ∧ t.chan = s.chan ∧ t.planner = s.planner ∧ t.store = s.store
      ∧ t.link = { s.link with flags := { fl with
          lineErrors1 := fl.lineErrors1 || decide (e = .e1), lineErrors2 := fl.lineErrors2 || decide (e = .e2) } }

/-- FOREIGN_MARK_TIMEOUT: join detection is QUIET again, with sighting record, foreign table, adjacent car and join
watch cleared, and the attempts kept (R15, R16). FOREIGN_QUIET_TIMEOUT in a MEMBER: FOREIGN_QUIET is queued with the
cab and heading of the last foreign YIELD mark, and the join watch is NONE (R20, R86). -/
def Obligations.ForeignTimeouts : Prop :=
  (
    ∀ (s : State) (e : EndId) (r : Sighting), s.powered = true → AtRest s → s.detecting e = true →
      (s.endUnit e).segregated = false → (s.endUnit e).timeoutApplies = true → (s.endUnit e).sighting = some r →
      ∃ t, exec (.foreignMarkTimeout e) s = .next t ∧ (t.endUnit e).phase = .quiet ∧ (t.endUnit e).sighting = none
        ∧ (t.endUnit e).foreign = none ∧ (t.endUnit e).adjacent = none ∧ (t.endUnit e).watch = .none
        ∧ (t.endUnit e).attempts = (s.endUnit e).attempts ∧ t.pet.queue = s.pet.queue ∧ t.link.flags = s.link.flags)
  ∧ (
    ∀ (s : State) (e : EndId) (r : Sighting), s.powered = true → s.form.node = .member → s.detecting e = true →
      (s.endUnit e).segregated = false → (s.endUnit e).phase = .reported →
      (s.endUnit e).watch = .quietWatch true → (s.endUnit e).sighting = some r →
      ∃ t, exec (.foreignQuietTimeout e) s = .next t ∧ (t.endUnit e).watch = .none ∧ (t.endUnit e).phase = .reported
        ∧ t.pet.queue = putWant (.foreignQuiet e (s.endUnit e).foreignCab.1 (s.endUnit e).foreignCab.2) s.pet.queue)

/-- WAITING_RECORD_SENT: the waiting record is sent whole as soon as the one in progress ends (R10). -/
def Obligations.WaitingRecordFollows : Prop :=
  ∀ (s : State) (e : EndId) (p : TxProgress) (w : TxRecord), s.powered = true → (s.endUnit e).sending = some p →
    (s.endUnit e).waiting = some w → s.now ≤ p.ends → w.octets ≠ [] →
    ∃ t, exec (.waitingRecordSent e) s = .next t ∧ t.now = p.ends
      ∧ (t.endUnit e).sending = some { record := w, ends := p.ends + w.octets.length }
      ∧ ((s.endUnit e).coming = none → (t.endUnit e).waiting = none)

/-! ## Records a follower and a leader take -/

/-- The third mark of one leader heard in LISTEN makes the part APPLICANT, with that leader followed (R45), also where
its other end is ISOLATED (DESIGN CHOICE, log 64). A mark of the followed leader and epoch, in the window at the upstream end of a SYNCED member, is accepted: the timer takes
its fields, LOCKED, with the counter at 4 ticks a hop; the table stays (R33, R35). Before the window it is early: counted
once, and held until the window opens (R36); after three early ones it is accepted wherever it arrives, with PHASE_JUMP
(R38), before the window also while the early hold stands (DEDUCED, log 44). An alien mark sets ALIEN_MARKS only (R41). At the
followed leader's epoch advance the pending table of that epoch is installed, or with none the member is UNSYNCED (R59,
R60); at a successor's mark a member armed complete under that epoch installs armed table B of the designated leader, and
without armed tables every gathered table is gone (R63, R140). On an outer end a foreign mark is sighted, at the
third of one leader and epoch the foreign table is collected, another one's starts again (R16); a complete table of an
adjacent car in its place, the contact CLOSED, makes REPORTED and queues JOIN_SEEN (R18, R19).
That a record is judged at its first octet is the model's (DESIGN CHOICE, log 47). -/
def Obligations.MarksHeardAndAccepted : Prop :=
  (
    ∀ (s : State) (e : EndId) (os : List Octet) (m : MarkFields) (k : Nat), s.powered = true → s.form.node = .listen →
      (s.endUnit e).mode = .line → goodRecordOf kindMark os = true → decodeMark os = some m →
      s.form.listenCandidate = some (m.leader, 2) →
      ∃ t, exec (.markReceived k e os) s = .next t ∧ t.form.node = .applicant
        ∧ t.timer.followed = some (m.leader, m.epoch) ∧ t.form.listenCandidate = none
        ∧ t.form.applicant.map ApplicantRecord.status = some .gathering ∧ t.form.current = s.form.current)
  ∧ (
    ∀ (s : State) (e : EndId) (os : List Octet) (m : MarkFields) (k : Nat), s.powered = true →
      s.form.node = .member → s.synced = true → s.timer.lock = .locked ∨ s.timer.lock = .flywheel → s.timer.early < 3 →
      (s.endUnit e).mode = .line → (s.endUnit e).segregated = false → s.outer e = false → s.upstream = some e →
      goodRecordOf kindMark os = true → decodeMark os = some m → s.timer.followed = some (m.leader, m.epoch) →
      s.windowOpen ≤ s.now + k → s.now + k ≤ s.windowClose →
      ∃ t, exec (.markReceived k e os) s = .next t ∧ t.timer.lock = .locked ∧ t.timer.counter = 4 * recordHop os
        ∧ t.timer.period = some m.period ∧ t.timer.index = m.index ∧ t.timer.round = m.round
        ∧ t.timer.latched = some m ∧ t.timer.reference = some (s.now + k) ∧ t.timer.kind = .marked
        ∧ t.timer.missed = 0 ∧ t.timer.early = 0 ∧ t.form.node = .member ∧ t.form.current = s.form.current)
  ∧ (
    ∀ (s : State) (e : EndId) (os : List Octet) (m : MarkFields) (k : Nat), MarkComes s e os m false →
      FollowsOn s e → s.timer.followed = some (m.leader, m.epoch) → s.now + k < s.windowOpen →
      let u := s.advance k
      ∃ t, exec (.markReceived k e os) s = .next t ∧ t.form = u.form ∧ t.timer = (if s.timer.earlyHold then u.timer
        else { u.timer with early := s.timer.early + 1, earlyHold := true, earlySeen := true }))
  ∧ (
    ∀ (s : State) (e : EndId) (os : List Octet) (m : MarkFields) (k : Nat), MarkComes s e os m false →
      s.synced = true → s.timer.lock = .locked ∨ s.timer.lock = .flywheel → s.upstream = some e →
      s.timer.followed = some (m.leader, m.epoch) → s.timer.early = 3 →
      ∃ t, exec (.markReceived k e os) s = .next t ∧ t.timer.lock = .locked ∧ t.timer.early = 0
        ∧ t.timer.counter = 4 * recordHop os ∧ t.timer.reference = some (s.now + k) ∧ t.timer.latched = some m
        ∧ t.form.current = s.form.current
        ∧ (AtRest s → s.chan.watch = [] → s.link.notices.length ≤ 30 →
          Queues t (.phaseJump m.leader { round := m.round, index := m.index, tick := 4 * recordHop os }
            (((s.now + k : Nat) : Int) - ((s.timer.reference.getD 0 + s.period : Nat) : Int)))))
  ∧ (
    ∀ (s : State) (e : EndId) (os : List Octet) (m : MarkFields) (k : Nat), MarkComes s e os m false → AtRest s →
      (s.form.node = .lead ∨ (s.form.node = .member ∧ ∃ l ep, s.timer.followed = some (l, ep) ∧ m.leader ≠ l
        ∧ (m.leader = s.ownTag ∨ holdsTag s.entries m.leader = false))) →
      let u := s.advance k
      ∃ t, exec (.markReceived k e os) s = .next t ∧ t.timer = u.timer ∧ t.form = u.form ∧ t.pet = u.pet
        ∧ t.link = { s.link with flags := { s.link.flags with alienMarks := true } })
  ∧ (
    ∀ (s : State) (e : EndId) (os : List Octet) (m : MarkFields) (k : Nat), MarkComes s e os m false →
      FollowsOn s e → s.synced = true → s.timer.followed = some (m.leader, m.epoch - 1) → InWindow s (s.now + k) →
      ∃ t, exec (.markReceived k e os) s = .next t ∧ t.timer.followed = some (m.leader, m.epoch)
        ∧ (∀ t0, s.form.pendingT = some t0 → t0.epoch = m.epoch → holdsTag t0.entries m.leader = true →
          holdsTag t0.entries s.ownTag = true → t.form.current = some t0 ∧ t.synced = true ∧ t.form.pendingT = none
            ∧ t.planner.inForce = some (makePlan t0 m.period))
        ∧ (s.form.pendingT = none → s.form.armedA = none → s.form.armedB = none →
          t.form.node = .member ∧ t.form.current = s.form.current ∧ t.synced = false))
  ∧ (
    ∀ (s : State) (e : EndId) (os : List Octet) (m : MarkFields) (l : Tag) (k : Nat), MarkComes s e os m false →
      FollowsOn s e → s.synced = true → s.timer.followed = some (l, m.epoch - 1) → m.leader ≠ l →
      m.leader ≠ s.ownTag → holdsTag s.entries m.leader = true → InWindow s (s.now + k) →
      ∃ t, exec (.markReceived k e os) s = .next t ∧ t.timer.followed = some (m.leader, m.epoch)
        ∧ t.form.node = .member ∧ t.form.fastPath = none
        ∧ (s.form.armedA = none → t.form.current = s.form.current ∧ t.synced = false ∧ t.form.pendingT = none
          ∧ t.form.armedB = none ∧ t.form.asmCurrent = none ∧ t.form.asmPending = none ∧ t.form.asmA = none
          ∧ t.form.asmB = none)
        ∧ (∀ a b, s.form.armedA = some a → s.form.armedB = some b → s.form.designatedB = some m.leader →
          holdsTag b.entries m.leader = true → holdsTag b.entries s.ownTag = true → m.n = b.size →
          a.epoch = m.epoch → b.epoch = m.epoch → t.form.current = some b ∧ t.synced = true))
  ∧ (
    ∀ (s : State) (e : EndId) (os : List Octet) (m : MarkFields) (k : Nat), MarkComes s e os m true →
      s.form.node = .lead ∨ s.form.node = .member → s.leaderTag ≠ some m.leader →
      let v := s.endUnit e
      let first : Sighting :=
        { leader := m.leader, epoch := m.epoch, period := m.period, count := 1, arrival := s.now + k }
      ∃ t, exec (.markReceived k e os) s = .next t
        ∧ (v.phase = .quiet → (t.endUnit e).phase = .sighting ∧ (t.endUnit e).sighting = some first)
        ∧ (∀ r, v.sighting = some r → (r.leader = m.leader ∧ r.epoch = m.epoch → v.phase = .sighting →
            (t.endUnit e).phase = (if r.count < 2 then .sighting else .collecting)
              ∧ (t.endUnit e).sighting = some { r with count := min 3 (r.count + 1), arrival := s.now + k })
          ∧ (r.leader ≠ m.leader ∨ r.epoch ≠ m.epoch → v.phase = .sighting ∨ v.phase = .collecting →
            (t.endUnit e).phase = .sighting ∧ (t.endUnit e).sighting = some first)
          ∧ (∀ rep, r.leader = m.leader ∧ r.epoch = m.epoch → v.phase = .collecting → recordHop os ≠ 0 →
            v.report (s.fixedEnd e) = some rep → v.contact = .closed → s.form.node = .member →
            (t.endUnit e).phase = .reported ∧ (t.endUnit e).watch = .none
              ∧ t.pet.queue = putWant (.joinSeen e rep 0) s.pet.queue)))

/-- A roll record that comes to a MEMBER in slot 0 of a MARKED cycle at the end the mark came by is taken (R54). Its
answer for the own position of a SYNCED member removes the want of its kind and end, but INCOMPLETE, which returns the
fragment pointer to 0; an UNSYNCED member takes none (R89). An answer is delivered as its kind and outcome ask (R89,
R118): a join answer to the named end, where it acts on an end in REPORTED only: the join watch, segregation, the
attempts (R20, R21). Its table part is stored in the assembly of its kind where its epoch is the working epoch, for the
other kinds the one above, and is ignored else (R51, R54, R55); a complete PENDING assembly is the pending table with
its shadow plan, complete assemblies A and B together are the armed tables (R55, R63, R80). A SYNCED member replaces the
entries of its current table by those of a CURRENT record of its size and cars, and makes its plan again (R141). An
entry is stored at its position; a second one with a car tag held clears the assembly, and a record of another epoch or
size starts it afresh (R55). The model's are: the leader that a JOIN_OUTCOME names (DESIGN CHOICE, log 63), that every
outcome of a split want is noticed (DESIGN CHOICE, log 86), and the phase QUIET under the segregated flag (DEDUCED, log
49). -/
def Obligations.RollAnswerRemovesWant : Prop :=
  (
    ∀ (s : State) (e : EndId) (os : List Octet) (r : RollFields) (a : RollAnswer) (k : Nat), s.powered = true →
    AtRest s → s.form.node = .member → s.synced = true → (s.endUnit e).mode = .line → (s.endUnit e).segregated = false →
    s.outer e = false → s.timer.kind = .marked → s.timer.acceptEnd = some e →
    (s.advance k).arrivalCell.map Prod.fst = some 0 → goodRecordOf kindRoll os = true → decodeRoll os = some r →
    r.answer = some a → a.position = s.ownPosition → a.position ≠ 0 → a.outcome ≠ .incomplete →
    ∃ t, exec (.rollRecordReceived k e os) s = .next t
      ∧ t.pet.queue = s.pet.queue.filter (fun w => !w.is a.kind a.wantEnd) ∧ t.form.node = .member
      ∧ t.pet.ownCab = s.pet.ownCab ∧ t.link.holding = s.link.holding)
  ∧ (
    ∀ (s : State) (e : EndId) (os : List Octet) (r : RollFields) (k : Nat), RollComes s e os r k → s.synced = false →
      ∃ t, exec (.rollRecordReceived k e os) s = .next t ∧ t.pet = (s.advance k).pet)
  ∧ (
    ∀ (s : State) (e : EndId) (os : List Octet) (r : RollFields) (a : RollAnswer) (k : Nat), AnswerComes s e os r a k →
      AtRest s → s.link.notices.length < 32 →
      ∃ t, exec (.rollRecordReceived k e os) s = .next t
        ∧ (∀ x, a.kind = .joinSeen → a.wantEnd = some x →
          let other := if a.outcome = .joinAbandoned then (s.endUnit x).joining.orElse fun _ => (s.endUnit x).reported
            else (s.endUnit x).reported
          let tells := fun o => Queues t (.joinOutcome o a.reason (some x) other)
          (a.outcome = .joinPrincipal → tells .principal) ∧ (a.outcome = .joinAbsorbed → tells .absorbed)
            ∧ (a.outcome = .joinRefused → tells .refused) ∧ (a.outcome = .joinAbandoned → tells .abandoned)
            ∧ (a.outcome = .stale → tells .stale)
            ∧ (a.outcome = .incomplete → t.link = s.link ∧ t.pet.queue = s.pet.queue.map fun w =>
                if w.is .joinSeen (some x) then w.rewind else w))
        ∧ (∀ x, a.kind = .brk → a.wantEnd = some x →
          let want := match s.wantOf .brk (some x) with
            | some (.brk _ c cap fx) => some (c, cap, fx)
            | _ => none
          (a.outcome = .done → Queues t (.breakOutcome .done want))
            ∧ (a.outcome = .stale → Queues t (.breakOutcome .stale want)))
        ∧ (∀ x, a.kind = .foreignQuiet ∨ a.kind = .principalReady → a.wantEnd = some x →
          a.outcome = .done ∨ a.outcome = .stale → t.link = s.link ∧ (t.endUnit x).phase = (s.endUnit x).phase
            ∧ (t.endUnit x).watch = (s.endUnit x).watch)
        ∧ (a.wantEnd = none →
          (a.kind = .split → a.outcome ≠ .incomplete → Queues t (.splitOutcome .split (.answer a.outcome a.reason)))
          ∧ (a.kind = .splitCancel → a.outcome ≠ .incomplete →
            Queues t (.splitOutcome .splitCancel (.answer a.outcome a.reason)))
          ∧ (a.kind = .cabClaim → a.outcome = .granted → Queues t (.cab .granted))
          ∧ (a.kind = .cabClaim → a.outcome = .taken ∨ a.outcome = .noCab →
            Queues t (.petitionAnswer .cabClaim a.outcome a.reason))
          ∧ (a.kind = .cabRelease → a.outcome = .done → Queues t (.cab .released))
          ∧ (a.kind = .cabRelease → a.outcome = .notHolder →
            Queues t (.petitionAnswer .cabRelease a.outcome a.reason))
          ∧ (a.kind = .heading → a.outcome = .done ∨ a.outcome = .notHolder →
            Queues t (.petitionAnswer .heading a.outcome a.reason))))
  ∧ (
    ∀ (s : State) (e x : EndId) (os : List Octet) (r : RollFields) (a : RollAnswer) (k : Nat),
      AnswerComes s e os r a k → a.kind = .joinSeen → a.wantEnd = some x →
      let v := s.endUnit x
      let acts := v.phase = .reported ∧ v.segregated = false
      ∃ t, exec (.rollRecordReceived k e os) s = .next t
        ∧ (let z := t.endUnit x
          let stays := z.phase = v.phase ∧ z.watch = v.watch ∧ z.segregated = v.segregated ∧ z.attempts = v.attempts
          let again := z.phase = .sighting ∧ z.sighting = v.sighting.map (fun g => { g with count := 0 })
            ∧ z.foreign = none ∧ z.watch = .none ∧ z.segregated = false
          let parted := z.segregated = true ∧ z.phase = .quiet ∧ z.foreign = none ∧ z.watch = .none
          (¬ acts → stays)
          ∧ (acts → a.outcome = .joinPrincipal → z.watch = .quietWatch false ∧ z.phase = .reported)
          ∧ (acts → a.outcome = .joinAbsorbed → z.watch = .admitWatch ∧ z.phase = .reported)
          ∧ (acts → a.outcome = .joinRefused → parted ∧ z.attempts = v.attempts)
          ∧ (acts → a.outcome = .joinAbandoned → a.reason = some .deadline →
            (v.attempts < 2 → again ∧ z.attempts = v.attempts + 1) ∧ (v.attempts = 2 → parted ∧ z.attempts = 3))
          ∧ (acts → a.outcome = .joinAbandoned → a.reason = some .brk → again ∧ z.attempts = v.attempts)
          ∧ (acts → a.outcome = .stale → again ∧ z.attempts = v.attempts)
          ∧ (acts → a.outcome = .incomplete → stays)))
  ∧ (
    ∀ (s : State) (e : EndId) (os : List Octet) (r : RollFields) (ep : Epoch) (k : Nat), RollComes s e os r k →
      s.timer.followed.map Prod.snd = some ep →
      let stored := fun a => storeRecord a r.epoch r.size r.entries
      let whole := fun (a : Assembly) => ∀ q, 1 ≤ q → q ≤ a.size → (entryAt a.entries q).isSome = true
      let held := fun (a : Assembly) => Table.mk a.epoch (a.entries.filter fun y => decide (y.position ≤ a.size))
      let f := s.form
      ∃ t, exec (.rollRecordReceived k e os) s = .next t ∧ t.form.node = .member
        ∧ (r.epoch ≠ (if r.kind = .current then ep else ep + 1) → t.form = f ∧ t.planner = s.planner)
        ∧ (r.epoch = ep + 1 → r.kind = .pending → t.form.current = f.current
          ∧ t.form.asmPending = some (stored f.asmPending)
          ∧ (¬ whole (stored f.asmPending) → t.form.pendingT = f.pendingT)
          ∧ (whole (stored f.asmPending) → t.form.pendingT = some (held (stored f.asmPending))
            ∧ (f.pendingT ≠ some (held (stored f.asmPending)) →
              t.planner.shadowPending = some (makePlan (held (stored f.asmPending)) s.period))))
        ∧ (∀ other, r.epoch = ep + 1 → r.kind = .armedA → f.asmB = some other → t.form.current = f.current
          ∧ t.form.asmA = some (stored f.asmA) ∧ t.form.asmB = f.asmB
          ∧ (whole (stored f.asmA) → whole other → other.epoch = ep + 1 →
            t.form.armedA = some (held (stored f.asmA)) ∧ t.form.armedB = some (held other)
              ∧ t.armedComplete = true)
          ∧ (¬ whole (stored f.asmA) ∨ ¬ whole other → t.form.armedA = f.armedA ∧ t.form.armedB = f.armedB))
        ∧ (∀ other, r.epoch = ep + 1 → r.kind = .armedB → f.asmA = some other → t.form.current = f.current
          ∧ t.form.asmB = some (stored f.asmB) ∧ t.form.asmA = f.asmA
          ∧ (whole (stored f.asmB) → whole other → other.epoch = ep + 1 →
            t.form.armedA = some (held other) ∧ t.form.armedB = some (held (stored f.asmB))
              ∧ t.armedComplete = true)
          ∧ (¬ whole (stored f.asmB) ∨ ¬ whole other → t.form.armedA = f.armedA ∧ t.form.armedB = f.armedB))
        ∧ (r.epoch = ep + 1 → r.kind = .armedA → f.asmB = none → t.form.asmA = some (stored f.asmA)
          ∧ t.form.armedA = f.armedA ∧ t.form.armedB = f.armedB)
        ∧ (r.epoch = ep + 1 → r.kind = .armedB → f.asmA = none → t.form.asmB = some (stored f.asmB)
          ∧ t.form.armedA = f.armedA ∧ t.form.armedB = f.armedB)
        ∧ (r.epoch = ep → r.kind = .current → s.synced = false →
          t.form.asmCurrent = some (stored f.asmCurrent) ∧ t.form.current = f.current ∧ t.planner = s.planner)
        ∧ (∀ tb, r.epoch = ep → r.kind = .current → s.synced = true → f.current = some tb →
          let fits := r.size = tb.size
            ∧ ∀ en ∈ r.entries, (entryAt tb.entries en.position).map Entry.tag = some en.tag
          (¬ fits → t.form = f ∧ t.planner = s.planner)
          ∧ (fits → (r.entries.map Entry.position).Nodup → ∃ tb', t.form = { f with current := some tb' }
            ∧ tb'.epoch = tb.epoch
            ∧ (∀ q, entryAt tb'.entries q = (entryAt r.entries q).orElse fun _ => entryAt tb.entries q)
            ∧ t.planner = if tb' = tb then s.planner else { s.planner with stale := true })))
  ∧ (
    ∀ (a : Assembly) (ep : Epoch) (size : Nat) (en : Entry) (rest : List Entry),
      storeRecord (some a) ep size (en :: rest) = storeRecord (some (storeRecord (some a) ep size [en])) ep size rest
      ∧ storeRecord none ep size [en] = { epoch := ep, size := size, entries := [en] }
      ∧ (a.epoch ≠ ep ∨ a.size ≠ size → storeRecord (some a) ep size [en] = storeRecord none ep size [en])
      ∧ (a.epoch = ep → a.size = size → (a.entries.map Entry.tag).Nodup → (a.entries.map Entry.position).Pairwise (· < ·) →
        let z := storeRecord (some a) ep size [en]
        z.epoch = ep ∧ z.size = size
          ∧ ((∃ y ∈ a.entries, y.tag = en.tag ∧ y.position ≠ en.position) → z.entries = [])
          ∧ ((∀ y ∈ a.entries, y.tag = en.tag → y.position = en.position) → ∀ q, entryAt z.entries q =
            if q = en.position then some en else entryAt a.entries q)))

/-- A petition from the car and in the cell that the table gives its position is taken by the leader: the sender's
silence count is 0 and its mark set. Of kind NONE, and of a want whose answer waits, it does nothing else (R90, R92,
R96). CAB_CLAIM, CAB_RELEASE and HEADING are decided by the arbiter (R97). SPLIT is answered, or makes an item, a
waiting one keeping its first requester (R94, R130); SPLIT_CANCEL is answered, and ends a split or its item (R135).
BREAK makes an urgent item, or takes the place of a waiting one's body, but not while one is in progress (R94, R142). A
JOIN_SEEN with entries is stored in the assembly of its reporter and end, begun anew under another leader tag or epoch,
and makes a JOIN item, or renews the waiting one, when entries 1 to m are held; a bare header is answered INCOMPLETE
where they are not (R93, R94). A want whose answer or item finds no room is not taken, its record is (R90, R94). For
which wants a waiting answer makes a repetition is DEDUCED (log 51), and so is that a JOIN_SEEN of an end that is not
outer is gathered (log 23). -/
def Obligations.PetitionClearsSilence : Prop :=
  (
    ∀ (s : State) (e : EndId) (os : List Octet) (en : Entry) (k : Nat), s.powered = true → s.form.node = .lead →
    (s.endUnit e).mode = .line → (s.endUnit e).segregated = false → s.outer e = false →
    goodRecordOf kindPetition os = true →
    let p := petitionSource os
    1 ≤ p → p ≤ s.n → p ≠ s.ownPosition → entryAt s.entries p = some en → en.tag = petitionSender os →
    (s.advance k).arrivalCell = some (petitionCell p) → petitionKind os = some .none →
    petitionEnd os = some none → petitionBodyOctets os = [] →
    ∃ t, exec (.petitionRecordReceived k e os) s = .next t
      ∧ t.pet.silence = s.pet.silence.map (fun c =>
          if c.tag = en.tag then { c with count := 0, heard := true, owed := false } else c)
      ∧ t.pet.work = s.pet.work ∧ t.pet.answers = s.pet.answers ∧ t.pet.queue = s.pet.queue
      ∧ t.pet.holder = s.pet.holder ∧ t.form = (s.advance k).form)
  ∧ (
    ∀ (s : State) (e : EndId) (os : List Octet) (en : Entry) (b : PetitionBody) (k : Nat), WantComes s e os en b k →
      s.answerWaits en.tag false b.kind b.wantEnd = true →
      ∃ t, exec (.petitionRecordReceived k e os) s = .next t ∧ t.pet = (s.advance k).pet.hearing en.tag
        ∧ t.form = (s.advance k).form)
  ∧ (
    ∀ (s : State) (e : EndId) (os : List Octet) (en : Entry) (b : PetitionBody) (k : Nat), WantComes s e os en b k →
      Answerable s en.tag b → entryOf s.entries en.tag = some en →
      let p := (s.advance k).pet.hearing en.tag
      let said := fun o => s.pet.answers ++ [answerTo en.tag b.kind none o none]
      let holds := s.pet.holder = some en.tag
      b = .cabClaim ∨ b = .cabRelease ∨ (∃ d, b = .heading d) →
      ∃ t, exec (.petitionRecordReceived k e os) s = .next t ∧ t.form = (s.advance k).form
        ∧ (b = .cabClaim → t.pet =
          if en.cab = false then { p with answers := said .noCab }
          else if s.pet.holder = none then
            { p with answers := said .granted, holder := some en.tag, cabHeading := .none }
          else if holds then { p with answers := said .granted }
          else { p with answers := said .taken })
        ∧ (b = .cabRelease → t.pet =
          if holds then { p with answers := said .done, holder := none, cabHeading := .none }
          else { p with answers := said .notHolder })
        ∧ (∀ d, b = .heading d → t.pet =
          if holds then { p with answers := said .done, cabHeading := d }
          else { p with answers := said .notHolder }))
  ∧ (
    ∀ (s : State) (e : EndId) (os : List Octet) (en : Entry) (b : PetitionBody) (k : Nat), WantComes s e os en b k →
      16 ≤ s.pet.answers.length → en.tag ≠ s.ownTag →
      b = .cabClaim ∨ b = .cabRelease ∨ (∃ d, b = .heading d) ∨ (∃ x c hd, b = .foreignQuiet x c hd)
        ∨ (∃ x, b = .principalReady x) ∨ (∃ q, b = .splitCancel q) →
      ∃ t, exec (.petitionRecordReceived k e os) s = .next t ∧ t.pet = (s.advance k).pet.hearing en.tag
        ∧ t.form = (s.advance k).form)
  ∧ (
    ∀ (s : State) (e : EndId) (os : List Octet) (en x y : Entry) (q k : Nat), WantComes s e os en (.split q) k →
      s.answerWaits en.tag false .split none = false → entryAt s.entries q = some x → entryAt s.entries (q + 1) = some y →
      let p := (s.advance k).pet.hearing en.tag
      let said := fun o => s.pet.answers ++ [answerTo en.tag .split none o none]
      let ofJoint := fun (sp : SplitRecord) =>
        (sp.low = x.tag ∧ sp.high = y.tag) ∨ (sp.low = y.tag ∧ sp.high = x.tag)
      ∃ t, exec (.petitionRecordReceived k e os) s = .next t ∧ t.form = (s.advance k).form
        ∧ (x.farKind = .fixed → RoomFor s en.tag → t.pet = { p with answers := said .fixed })
        ∧ (∀ sp, x.farKind ≠ .fixed → s.pet.split = some sp →
          (ofJoint sp → sp.stage ≠ .armed → t.pet = p)
          ∧ (ofJoint sp → sp.stage = .armed → RoomFor s en.tag → t.pet = { p with answers := said .armed })
          ∧ (¬ ofJoint sp → RoomFor s en.tag → t.pet = { p with answers := said .alreadyArmed }))
        ∧ (x.farKind ≠ .fixed → s.pet.split = none →
          (∀ it ∈ s.pet.work, it.splits x.tag y.tag = false) →
          t.pet = if s.pet.work.length < 8 then { p with work := s.pet.work ++ [.split en.tag x.tag y.tag q] } else p)
        ∧ (∀ w1 w2 r q0, x.farKind ≠ .fixed → s.pet.split = none →
          s.pet.work = w1 ++ .split r x.tag y.tag q0 :: w2 →
          (∀ it ∈ w1 ++ w2, it.splits x.tag y.tag = false) →
          t.pet = { p with work := w1 ++ .split r x.tag y.tag q :: w2 }))
  ∧ (
    ∀ (s : State) (e : EndId) (os : List Octet) (en x y : Entry) (q k : Nat), WantComes s e os en (.splitCancel q) k →
      Answerable s en.tag (.splitCancel q) → entryAt s.entries q = some x → entryAt s.entries (q + 1) = some y →
      let p := (s.advance k).pet.hearing en.tag
      let told := fun o => answerTo en.tag .splitCancel none o none
      let ofJoint := fun (sp : SplitRecord) =>
        (sp.low = x.tag ∧ sp.high = y.tag) ∨ (sp.low = y.tag ∧ sp.high = x.tag)
      ∃ t, exec (.petitionRecordReceived k e os) s = .next t ∧ t.form.current = s.form.current
        ∧ (∀ sp, s.pet.split = some sp → ofJoint sp → sp.stage = .executing →
          t.pet = { p with answers := s.pet.answers ++ [told .tooLate] } ∧ t.form = (s.advance k).form)
        ∧ (∀ sp, s.pet.split = some sp → ofJoint sp → sp.stage ≠ .executing → sp.requester ≠ s.ownTag →
          s.pet.answers.length < 15 →
          t.form.procedure = some .steady ∧ t.pet = { p with
            split := none, inProgress := none, deferred := true
            answers := s.pet.answers
              ++ [told .cancelled, answerTo sp.requester .split none .disarmed (some .cancelled)] })
        ∧ (∀ w1 w2 r l h q0, (∀ sp, s.pet.split = some sp → ¬ ofJoint sp) →
          s.pet.work = w1 ++ .split r l h q0 :: w2 → (WorkItem.split r l h q0).splits x.tag y.tag = true →
          (∀ it ∈ w1 ++ w2, it.splits x.tag y.tag = false) → r ≠ s.ownTag → s.pet.answers.length < 15 →
          t.form = (s.advance k).form ∧ t.pet = { p with
            work := w1 ++ w2
            answers := s.pet.answers ++ [told .cancelled, answerTo r .split none .cancelled none] })
        ∧ ((∀ sp, s.pet.split = some sp → ¬ ofJoint sp) → (∀ it ∈ s.pet.work, it.splits x.tag y.tag = false) →
          t.form = (s.advance k).form ∧ t.pet = { p with answers := s.pet.answers ++ [told .notArmed] }))
  ∧ (
    ∀ (s : State) (e x : EndId) (os : List Octet) (en : Entry) (c : Cause) (cap : TrainTime) (fx : Bool) (k : Nat),
      WantComes s e os en (.brk x c cap fx) k → s.answerWaits en.tag false .brk (some x) = false →
      let p := (s.advance k).pet.hearing en.tag
      let it := WorkItem.brk en.tag x c (some cap) fx
      ∃ t, exec (.petitionRecordReceived k e os) s = .next t ∧ t.form = (s.advance k).form
        ∧ (∀ cur, s.pet.inProgress = some cur → cur.breaks en.tag x = true → t.pet = p)
        ∧ (s.pet.inProgress.any (WorkItem.breaks en.tag x) = false →
          ((∀ w ∈ s.pet.work, w.breaks en.tag x = false) →
            t.pet = if s.pet.work.length < 8 then { p with work := insertUrgent it s.pet.work } else p)
          ∧ (∀ w1 w2 old, s.pet.work = w1 ++ old :: w2 → old.breaks en.tag x = true →
            (∀ w ∈ w1 ++ w2, w.breaks en.tag x = false) → t.pet = { p with work := w1 ++ it :: w2 })))
  ∧ (
    ∀ (s : State) (e x : EndId) (os : List Octet) (en : Entry) (h : JoinHeader) (i : Nat) (ens : List Entry) (k : Nat),
      WantComes s e os en (.joinSeen x h i ens) k → s.answerWaits en.tag false .joinSeen (some x) = false →
      (ens.map Entry.position).Nodup →
      let p := (s.advance k).pet.hearing en.tag
      let held := s.pet.joins.find? (JoinAssembly.isOf en.tag x)
      let same := held.filter fun j => j.header.leader == h.leader && j.header.epoch == h.epoch
      let old := (same.map JoinAssembly.entries).getD []
      let whole := fun (l : List Entry) (size : Nat) => ∀ q, 1 ≤ q → q ≤ size → (entryAt l q).isSome = true
      let placed := fun (j : JoinAssembly) (work : List WorkItem) =>
        let it := WorkItem.join en.tag x
          { header := j.header, entries := j.entries.filter fun y => decide (y.position ≤ j.header.size) }
        ((∀ w ∈ s.pet.work, w.joins en.tag x = false) →
          work = if s.pet.work.length < 8 then s.pet.work ++ [it] else s.pet.work)
        ∧ (∀ w1 w2 old, s.pet.work = w1 ++ old :: w2 → old.joins en.tag x = true →
          (∀ w ∈ w1 ++ w2, w.joins en.tag x = false) → work = w1 ++ it :: w2)
      ∃ t, exec (.petitionRecordReceived k e os) s = .next t ∧ t.form = (s.advance k).form
        ∧ (∀ j ∈ s.pet.joins, j.isOf en.tag x = false → j ∈ t.pet.joins)
        ∧ (ens ≠ [] → ∃ j, t.pet.joins.find? (JoinAssembly.isOf en.tag x) = some j ∧ j.header = h
          ∧ (∀ q, entryAt j.entries q = (entryAt ens q).orElse fun _ => entryAt old q)
          ∧ t.pet.answers = s.pet.answers
          ∧ (¬ whole j.entries h.size → t.pet = { p with joins := t.pet.joins })
          ∧ (whole j.entries h.size → t.pet = { p with joins := t.pet.joins, work := t.pet.work } ∧ placed j t.pet.work))
        ∧ (∀ j, ens = [] → same = some j → whole j.entries j.header.size →
          t.pet = { p with work := t.pet.work } ∧ placed j t.pet.work)
        ∧ (ens = [] → (∀ j, same = some j → ¬ whole j.entries j.header.size) → en.tag ≠ s.ownTag →
          16 ≤ s.pet.answers.length → t.pet = p)
        ∧ (ens = [] → (∀ j, same = some j → ¬ whole j.entries j.header.size) → RoomFor s en.tag →
          t.pet = { p with
              joins := t.pet.joins
              answers := s.pet.answers ++ [answerTo en.tag .joinSeen (some x) .incomplete none] }
            ∧ (same = none → t.pet.joins.find? (JoinAssembly.isOf en.tag x) =
              some { reporter := en.tag, reporterEnd := x, header := h, entries := [] })
            ∧ (∀ j, same = some j → t.pet.joins = s.pet.joins)))

/-- A channel record of the current epoch in the cell that the plan gives its pair is accepted: its image cell takes the
payload in car sense, the publisher age and the stale flag, with receive age 0 (R153, R154). -/
def Obligations.ChannelRecordAccepted : Prop :=
  ∀ (s : State) (e : EndId) (os : List Octet) (t0 : Table) (x : ImageCell) (en : Entry) (d : ChannelDesc) (k : Nat),
    s.powered = true → s.form.node = .lead ∨ s.form.node = .member → (s.endUnit e).mode = .line →
    (s.endUnit e).segregated = false → s.outer e = false → goodRecordOf kindChannel os = true →
    let c := decodeChannelRecord os
    c.channel ≤ 7 → s.form.current = some t0 → t0.epoch = c.epoch →
    (s.advance k).cellCheck c.source c.channel = true → c.source ≠ s.ownPosition →
    entryAt s.entries c.source = some en → en.channels[c.channel]? = some d →
    cellAt s.cells c.source c.channel = some x →
    ∃ t, exec (.channelRecordReceived k e os) s = .next t
      ∧ cellAt t.cells c.source c.channel = some { x with
          payload := some (if s.ownOrientation = some .reversed ∧ d.sided = true
            then c.payload.drop 16 ++ c.payload.take 16 else c.payload)
          publisherAge := c.age, receiveAge := 0, state := if c.stale then .stale else .fresh }
      ∧ t.chan.out = s.chan.out ∧ t.form = (s.advance k).form ∧ t.pet = (s.advance k).pet

/-! ## The leader's cycles -/

/-- LISTEN_TIMEOUT: LEAD of a formation of this one car, epoch 0, STEADY, the first mark at cycle index 0 of round 0
(R30, R46, R47). -/
def Obligations.ListenTimeoutLeadsAlone : Prop :=
  ∀ (s : State) (sn : Snapshot), s.powered = true → s.form.node = .listen → s.store.snapshot = some sn →
    s.pet = PetitionUnit.initial →
    ∃ t, exec .listenTimeout s = .next t ∧ t.form.node = .lead
      ∧ t.form.current = some { epoch := 0, entries := [sn.soleEntry] } ∧ t.form.procedure = some .steady
      ∧ t.timer.lock = .generating ∧ t.timer.counter = 0 ∧ t.timer.index = 0 ∧ t.timer.round = 0
      ∧ t.timer.period = some sn.service.period
      ∧ t.timer.latched.map MarkFields.leader = some sn.identity.tag ∧ t.now = s.now + (60000 - s.form.listenTimer)

/-- Each generated cycle start of a leader sets the counter to 0 and advances the cycle index, and the round count at
index 0 (R23, R26, R29). At a plain one the receive ages of the other cars' cells rise (R156), and every own channel that the
plan gives a cell at the new index is taken: outbound age, mark, live copy and own cell, a REVERSED car exchanging the halves
of a sided channel; the other own channels have no live copy and their cells age (R150, R151, R155). That the sided flag is
that of the own entry of the current table is the model's (DESIGN CHOICE, log 81). -/
def Obligations.GeneratedStartsOpenCycles : Prop :=
  ∀ s : State, s.powered = true →
    let opens := fun (c : Instr) => ∃ t, exec c s = .next t ∧ CycleOpened s t ∧ t.now = s.counterReturn
    (s.leadStart = some .generated → opens .generatedCycleStart)
    ∧ (s.leadStart = some .switchMark → opens .switchMark)
    ∧ (s.leadStart = some .armedReached → opens .armedReached)
    ∧ (s.leadStart = some .splitSwitch → opens .splitSwitch)
    ∧ (s.leadStart = some .principalDeadline → opens .principalJoinDeadline)
    ∧ (s.leadStart = some .absorbedDeadline → opens .absorbedJoinDeadline)
    ∧ (∀ p, s.leadStart = some .generated → s.planner.inForce = some p →
      let own := s.ownPosition
      let taken := fun (ch : Nat) => ch < s.settings.channels.length ∧ ch < 8 ∧ ∃ c ∈ p.cells,
        c.position = own ∧ c.index = (s.timer.index + 1) % 4 ∧ c.channel = ch
      let raised := fun (x : ImageCell) => { x with receiveAge := min 255 (x.receiveAge + 1) }
      ∃ t, exec .generatedCycleStart s = .next t
        ∧ (∀ q ch, q ≠ own → cellAt t.cells q ch = (cellAt s.cells q ch).map raised)
        ∧ ∀ ch o, s.chan.out[ch]? = some o →
          let age := if o.written then 0 else min 15 (o.age + 1)
          let stale := decide (s.settings.staleLimit ≤ age)
          let exchanged := s.ownOrientation = some .reversed
            ∧ (s.ownEntry.bind fun en => en.channels[ch]?).map ChannelDesc.sided = some true
          (taken ch → t.chan.out[ch]? = some { o with written := false, age := age }
            ∧ t.chan.live.find? (fun l => l.channel == ch) = some
                { channel := ch, age := age, stale := stale
                  payload := if exchanged then o.staging.drop 16 ++ o.staging.take 16 else o.staging }
            ∧ cellAt t.cells own ch = (cellAt s.cells own ch).map fun x =>
                { x with payload := some o.staging, publisherAge := age, receiveAge := 0
                         state := if stale then .stale else .fresh })
          ∧ (¬ taken ch → t.chan.out[ch]? = some o ∧ t.chan.live.find? (fun l => l.channel == ch) = none
            ∧ cellAt t.cells own ch = (cellAt s.cells own ch).map raised))

/-- SWITCH_MARK: the pending table is the current one, the mark carries its epoch, size and STEADY, and the item in
progress is over (R58, R61). The cells of the other cars are carried over to it, their receive ages raised: a present one
keeps its state, one that was gone is STALE or EMPTY, a channel without a cell gets a new one, and suspension follows; the
cells of the cars that left are the gone ones, and no present cell is without its channel (R156, R157). -/
def Obligations.SwitchMarkInstallsPending : Prop :=
  ∀ (s : State) (t0 : Table), s.powered = true → s.leadStart = some .switchMark → s.form.pendingT = some t0 →
    holdsTag t0.entries s.ownTag = true → s.pet.queue = [] →
    ∃ t, exec .switchMark s = .next t ∧ t.form.node = .lead ∧ t.form.current = some t0 ∧ t.form.pendingT = none
      ∧ t.form.procedure = some .steady ∧ t.pet.inProgress = none ∧ t.pet.join = none
      ∧ t.planner.inForce = some (makePlan t0 s.settings.period)
      ∧ t.timer.latched.map MarkFields.epoch = some t0.epoch ∧ t.timer.latched.map MarkFields.n = some t0.size
      ∧ t.timer.latched.map MarkFields.procedure = some .steady
      ∧ ((t0.entries.map Entry.position).Nodup → ∀ q ch en d, entryAt t0.entries q = some en → en.tag ≠ s.ownTag →
        en.channels[ch]? = some d →
        let carried : ImageCell := match cellOfTag s.cells en.tag ch with
          | some x => { x with
              position := some q, receiveAge := min 255 (x.receiveAge + 1)
              state := if x.position.isSome then x.state else if x.payload.isSome then .stale else .empty }
          | none => { tag := en.tag, channel := ch, position := some q, state := .empty, payload := none,
                      publisherAge := 0, receiveAge := 0 }
        cellAt t.cells q ch = some { carried with
          state := if d.granted = .suspended then .suspended
            else if carried.state = .suspended then (if carried.payload.isSome then .stale else .empty)
            else carried.state })
      ∧ (t.cells.filter fun x => x.position.isNone) =
          (s.cells.filter fun x => x.position.isSome && !holdsTag t0.entries x.tag).map (fun x =>
            { x with position := none, state := .gone, receiveAge := min 255 (x.receiveAge + 1) })
      ∧ (∀ x ∈ t.cells, ∀ q, x.position = some q →
          ∃ en ∈ t0.entries, en.position = q ∧ en.tag = x.tag ∧ x.channel < en.channels.length)

/-- ARMED_REACHED: the procedure is ARMED, the split record's armed time runs from 0, and ARMED is answered to the
requester (R62, R132). SPLIT_SWITCH: the leader's side installs table A, the split record is cleared, the procedure
is STEADY (R136). -/
def Obligations.SplitArmsAndSwitches : Prop :=
  (
    ∀ (s : State) (sp : SplitRecord), s.powered = true → s.leadStart = some .armedReached → s.pet.split = some sp →
      s.pet.deferred = false → s.pet.queue = [] → RoomFor s sp.requester →
      ∃ t, exec .armedReached s = .next t ∧ t.form.procedure = some .armed
        ∧ t.pet.split = some { sp with stage := .armed, armedTime := 0 }
        ∧ t.pet.answers = s.pet.answers ++ [answerTo sp.requester .split none .armed none]
        ∧ t.form.armedA = s.form.armedA ∧ t.form.armedB = s.form.armedB)
  ∧ (
    ∀ (s : State) (sp : SplitRecord) (a : Table), s.powered = true → s.leadStart = some .splitSwitch →
      s.pet.split = some sp → s.form.armedA = some a → holdsTag a.entries s.ownTag = true → s.pet.queue = [] →
      ∃ t, exec .splitSwitch s = .next t ∧ t.form.node = .lead ∧ t.form.current = some a ∧ t.pet.split = none
        ∧ t.pet.inProgress = none ∧ t.form.procedure = some .steady ∧ t.form.armedA = none ∧ t.form.armedB = none
        ∧ t.planner.inForce = some (makePlan a s.settings.period))

/-- The join deadlines: the join is abandoned, JOIN_ABANDONED with reason DEADLINE is answered, the procedure is STEADY
(R107, R109). The joint car's signals: a matching FOREIGN_QUIET is answered DONE and announces the merged table, with
the foreign holder and heading read from it (R99, R105, R106); a matching PRINCIPAL_READY is answered DONE and begins
the YIELD with the principal as other tag (R109, R110); each is answered STALE otherwise and changes nothing else. The
merged table has the positions, orientations and coupling kinds laid down for it (R64); an adjacent position other than
1 and m is read as m (DESIGN CHOICE, log 107), and a FOREIGN_QUIET that names no position of the foreign table names no
holder (DESIGN CHOICE, log 79). -/
def Obligations.JoinDeadlinesAbandon : Prop :=
  (
    ∀ (s : State) (j : JoinProgress), s.powered = true → s.pet.join = some j → s.pet.queue = [] →
    RoomFor s j.reporter →
    let abandons := fun (c : Instr) => ∃ t, exec c s = .next t ∧ t.pet.join = none ∧ t.pet.inProgress = none
      ∧ t.form.procedure = some .steady ∧ t.form.otherTag = none
      ∧ t.pet.answers = s.pet.answers
          ++ [answerTo j.reporter .joinSeen (some j.reporterEnd) .joinAbandoned (some .deadline)]
    (s.leadStart = some .principalDeadline → abandons .principalJoinDeadline)
    ∧ (s.leadStart = some .absorbedDeadline → abandons .absorbedJoinDeadline))
  ∧ (
    ∀ (s : State) (e x : EndId) (os : List Octet) (en : Entry) (c : Nat) (hd : Heading) (k : Nat),
      WantComes s e os en (.foreignQuiet x c hd) k → Answerable s en.tag (.foreignQuiet x c hd) →
      let p := (s.advance k).pet.hearing en.tag
      let said := fun o => s.pet.answers ++ [answerTo en.tag .foreignQuiet (some x) o none]
      let fits := fun (j : JoinProgress) =>
        j.role = .principal ∧ j.phase = .admitting ∧ j.reporter = en.tag ∧ j.reporterEnd = x
      ∃ t, exec (.petitionRecordReceived k e os) s = .next t
        ∧ ((∀ j, s.pet.join = some j → ¬ fits j) →
          t.pet = { p with answers := said .stale } ∧ t.form = (s.advance k).form)
        ∧ (∀ j, s.pet.join = some j → fits j → entryOf s.entries en.tag = some en →
          let first : Prop := if j.report.header.size = 1 then j.report.header.adjSide = .ref
            else j.report.header.adjPosition = 1
          let holder := if c = 0 then none
            else (entryAt j.report.entries c).map fun y => (y.tag, hd.toLocal y.orientation)
          t.pet = { p with answers := said .done, join := some { j with phase := .announce, foreignHolder := holder } }
            ∧ t.form.procedure = some .announce ∧ t.form.current = s.form.current
            ∧ t.form.pendingT = some (Table.mk s.nextEpoch (grantRates s.settings.period
                (mergeTables s.entries (decide (en.orientation.sideOf x = .far)) j.report.entries (decide first)
                  j.report.header.fixed)))))
  ∧ (
    ∀ (s : State) (e x : EndId) (os : List Octet) (en : Entry) (k : Nat),
      WantComes s e os en (.principalReady x) k → Answerable s en.tag (.principalReady x) →
      let p := (s.advance k).pet.hearing en.tag
      let said := fun o => s.pet.answers ++ [answerTo en.tag .principalReady (some x) o none]
      let fits := fun (j : JoinProgress) =>
        j.role = .absorbed ∧ j.phase = .awaitReady ∧ j.reporter = en.tag ∧ j.reporterEnd = x
      ∃ t, exec (.petitionRecordReceived k e os) s = .next t
        ∧ ((∀ j, s.pet.join = some j → ¬ fits j) →
          t.pet = { p with answers := said .stale } ∧ t.form = (s.advance k).form)
        ∧ (∀ j, s.pet.join = some j → fits j →
          t.pet = { p with answers := said .done, join := some { j with phase := .yielding } }
            ∧ t.form.procedure = some .yielding ∧ t.form.countdown = 4
            ∧ t.form.otherTag = some j.report.header.leader ∧ t.form.current = s.form.current
            ∧ t.form.pendingT = s.form.pendingT))
  ∧ (
    ∀ (pr ab : List Entry) (far first fixed : Bool),
      pr ≠ [] → ab ≠ [] → pr.map Entry.position = List.range' 1 pr.length →
      ab.map Entry.position = List.range' 1 ab.length →
      let n := pr.length
      let m := ab.length
      let kind : CouplingKind := if fixed then .fixed else .service
      let merged := mergeTables pr far ab first fixed
      let flipped := far ≠ first
      merged.map Entry.position = List.range' 1 (n + m)
        ∧ (∀ p x, entryAt pr p = some x →
          let at_ := if far then p else p + m
          entryAt merged at_ = some { x with
            position := at_
            farKind := if far ∧ p = n then kind else x.farKind
            refKind := if ¬ far ∧ p = 1 then kind else x.refKind })
        ∧ (∀ q y, entryAt ab q = some y →
          let at_ := if far then (if first then n + q else n + m + 1 - q) else (if first then m + 1 - q else q)
          let z := if flipped then
            { y with orientation := y.orientation.flip, refKind := y.farKind, farKind := y.refKind } else y
          entryAt merged at_ = some { z with
            position := at_
            refKind := if far ∧ at_ = n + 1 then kind else z.refKind
            farKind := if ¬ far ∧ at_ = m then kind else z.farKind }))

/-- YIELD_END: SEEK, ACQUIRING, with the principal as the mark named it and the deadline 64 old periods on; the wants are
kept, the leader's records cleared (R42, R88, R101, R110, R113).
Where the deadline counts from is DEDUCED (log 16). -/
def Obligations.YieldEndEntersSeek : Prop :=
  ∀ s : State, s.powered = true → s.leadStart = some .yieldEnd →
    ∃ t k, exec .yieldEnd s = .next t ∧ t.form.node = .seek ∧ t.timer.lock = .acquiring ∧ t.form.seek = some k
      ∧ k.principal = s.form.otherTag.getD 0 ∧ k.formerLead = true ∧ k.locked = false
      ∧ k.deadline = s.counterReturn + 64 * s.settings.period ∧ t.timer.missed = 1
      ∧ t.pet.queue = s.pet.queue ∧ t.pet.work = [] ∧ t.pet.answers = [] ∧ t.pet.join = none
      ∧ t.form.current = s.form.current

/-- FIRST_GENERATED_MARK: the led table is installed and the part generates, in STEADY (R31, R138). The designated B leader
does so too and queues PARTED for side B; where its table's demand exceeds the round capacity under its own period it
announces the table trimmed and granted anew, under the epoch above and with the countdown of its first ANNOUNCE mark, by the
size of the table it announces (R57, R72, R83, R136, R139).
A leader that resumed is in STEADY where it has started no item since, which it may (R116, DEDUCED, log 76). -/
def Obligations.FirstMarkInstallsLedTable : Prop :=
  ∀ (s : State) (led : Led), s.powered = true → s.leadStart = some .firstMark → s.form.led = some led →
    (led.by_ = .resume → s.form.procedure = some .steady) →
    holdsTag led.table.entries s.ownTag = true → s.pet.queue = [] → s.pet.deferred = false →
    let regrants := led.by_ = .designatedB ∧
      roundCapacity s.settings.period led.table.size < grantedDemand led.table.entries
    ∃ t, exec .firstGeneratedMark s = .next t ∧ t.form.node = .lead ∧ t.form.current = some led.table
      ∧ t.form.led = none ∧ t.timer.lock = .generating ∧ t.timer.counter = 0
      ∧ (¬ regrants → t.form.procedure = some .steady)
      ∧ (regrants → t.form.procedure = some .announce
        ∧ t.form.pendingT = some (Table.mk (led.table.epoch + 1)
            (grantKept s.settings.period s.ownTag led.table.entries))
        ∧ t.form.countdown = countdownFrom t.timer.index
            (announceLeast (grantKept s.settings.period s.ownTag led.table.entries).length)
        ∧ t.timer.latched.map MarkFields.countdown = some t.form.countdown)
      ∧ t.timer.latched.map MarkFields.procedure = t.form.procedure
      ∧ t.timer.latched.map MarkFields.leader = some s.ownTag
      ∧ t.timer.latched.map MarkFields.epoch = some led.table.epoch
      ∧ t.timer.latched.map MarkFields.n = some led.table.size
      ∧ (led.by_ = .designatedB → AtRest s → s.chan.watch = [] → s.link.notices.length ≤ 28 →
        Queues t (.splitOutcome .split (.parted { sideA := false, epoch := led.table.epoch, size := led.table.size
                                                  joint := s.armedJoint })))

/-- ARMED_TIMEOUT: the split is disarmed, STEADY, and DISARMED with reason TIMEOUT is answered (R133). -/
def Obligations.ArmedTimeoutDisarms : Prop :=
  ∀ (s : State) (sp : SplitRecord), s.powered = true → s.form.node = .lead → s.pet.split = some sp →
    sp.stage = .armed → RoomFor s sp.requester →
    ∃ t, exec .armedTimeout s = .next t ∧ t.pet.split = none ∧ t.pet.inProgress = none
      ∧ t.form.procedure = some .steady ∧ t.form.current = s.form.current
      ∧ t.pet.answers = s.pet.answers ++ [answerTo sp.requester .split none .disarmed (some .timeout)]

/-- SILENCE_LIMIT, then the item's start: a DROPOUT is placed ahead of the items that are not urgent, and when it starts
in STEADY the table without that car is announced with the next epoch (R92, R94, R95, R147). A BREAK announces the
leader's side of the broken joint (R142). A JOIN is refused LIMIT, CONFLICT or CAPACITY, or begun as principal, with
ADMIT, or as the absorbed side (R102 to R104, R109). A SPLIT arms the leader's side as A and the other as B, led by its
car at the joint (R62, R131). An ENROLL is answered STALE where its place is gone, REFUSED with LIMIT, CONFLICT or
CAPACITY, or ACCEPTED and announced (R125). While the mark with STEADY is owed after a disarm or a cancel (R133, R135),
no item starts; that a join ended by a break owes it too (R112) is the model's (DEDUCED, log 19). The model's are: one
item a command (DEDUCED, log 33), CONFLICT by the entry's tag (DESIGN CHOICE, log 73), an ENROLL under the leader's own
tag judged like any other (log 30), its STALE where its place is gone in place of a discard (log 52), and the starts of
BREAK, JOIN, SPLIT and ENROLL between a resume and its first mark (DEDUCED, log 76). -/
def Obligations.SilentCarIsDropped : Prop :=
  ∀ (s : State) (x : Tag) (rest : List Tag), s.powered = true →
    (s.pet.silenceDue = x :: rest → s.pet.work.length < 8 → (∀ it ∈ s.pet.work, it ≠ .dropout x) →
      ∃ t, exec .silenceLimit s = .next t ∧ t.pet.work = insertUrgent (.dropout x) s.pet.work
        ∧ t.pet.silenceDue = rest ∧ t.form = s.form ∧ t.timer = s.timer)
    ∧ (∀ w, s.leading = true → s.pet.inProgress = none → s.pet.deferred = false → s.form.procedure = some .steady →
      s.pet.work = .dropout x :: w → holdsTag s.entries x = true →
      (s.pet.silence.any fun c => c.tag == x && decide (s.settings.silenceLimit ≤ c.count)) = true →
      ∃ t, exec .workItemStart s = .next t ∧ t.pet.work = w ∧ t.pet.inProgress = some (.dropout x)
        ∧ t.form.procedure = some .announce ∧ t.form.current = s.form.current
        ∧ t.form.pendingT = some (Table.mk s.nextEpoch (grantKept s.settings.period s.ownTag
            (removePosition s.entries (positionOf s.entries x)))))
    ∧ (s.pet.deferred = true → s.pet.inProgress = none → exec .workItemStart s = .next s)
    ∧ (∀ w x e c cap fx en, ItemStarts s (.brk x e c cap fx) w → innerIn s.entries x e = true →
      entryOf s.entries x = some en →
      ∃ t, exec .workItemStart s = .next t ∧ t.pet.work = w ∧ t.pet.inProgress = some (.brk x e c cap fx)
        ∧ t.form.procedure = some .announce ∧ t.form.current = s.form.current
        ∧ t.form.pendingT = some (Table.mk s.nextEpoch (grantKept s.settings.period s.ownTag
            (if en.orientation.sideOf e = .far then keepRun s.entries 1 en.position
              else keepRun s.entries en.position s.n))))
    ∧ (∀ w x e r, ItemStarts s (.join x e r) w → holdsTag s.entries x = true → outerIn s.entries x e = true →
      RoomFor s x →
      let m := r.header.size
      let principal := m < s.n ∨ s.n = m ∧ s.ownTag < r.header.leader
      let period := if principal then s.settings.period else r.header.period
      let refusal : Option Reason :=
        if s.settings.formationLimit < s.n + m then some .limit
        else if ∃ en ∈ s.entries, holdsTag r.entries en.tag = true then some .conflict
        else if roundCapacity period (s.n + m) < safetyDemand s.entries + safetyDemand r.entries then some .capacity
        else none
      let said := fun o why => s.pet.answers ++ [answerTo x .joinSeen (some e) o why]
      ∃ t, exec .workItemStart s = .next t ∧ t.pet.work = w ∧ t.form.current = s.form.current
        ∧ (∀ why, refusal = some why → t.pet.answers = said .joinRefused (some why) ∧ t.pet.inProgress = none
          ∧ t.form.procedure = some .steady)
        ∧ (refusal = none → t.pet.inProgress = some (.join x e r) ∧ t.pet.join = some
            { role := if principal then .principal else .absorbed, reporter := x, reporterEnd := e, report := r,
              phase := if principal then .admitting else .awaitReady, wait := 0, foreignHolder := none })
        ∧ (refusal = none → principal → t.pet.answers = said .joinPrincipal none
          ∧ t.form.procedure = some .admitting ∧ t.form.otherTag = some r.header.leader)
        ∧ (refusal = none → ¬ principal → t.pet.answers = said .joinAbsorbed none
          ∧ t.form.procedure = some .steady))
    ∧ (∀ w x l h p0 p l' h', ItemStarts s (.split x l h p0) w → holdsTag s.entries x = true →
      rejoin l h s.entries = some (p, l', h') →
      let low := grantRates s.settings.period (keepRun s.entries 1 p)
      let high := grantRates s.settings.period (keepRun s.entries (p + 1) s.n)
      let below := holdsTag (keepRun s.entries 1 p) s.ownTag
      let b := if below then h' else l'
      ∃ t, exec .workItemStart s = .next t ∧ t.pet.work = w ∧ t.pet.inProgress = some (.split x l h p0)
        ∧ t.form.procedure = some .arming ∧ t.form.current = s.form.current ∧ t.form.designatedB = some b
        ∧ t.form.armedA = some (Table.mk s.nextEpoch (if below then low else high))
        ∧ t.form.armedB = some (Table.mk s.nextEpoch (if below then high else low))
        ∧ t.pet.split = some { low := l', high := h', requester := x, designatedB := b, stage := .arming, armedTime := 0
                               execution := 0 })
    ∧ (∀ w x en pl, ItemStarts s (.enroll x en pl) w → s.pet.answers.length < 16 →
      let refusal : Option Reason :=
        if s.settings.formationLimit < s.n + 1 then some .limit
        else if holdsTag s.entries en.tag then some .conflict
        else if roundCapacity s.settings.period (s.n + 1) < safetyDemand s.entries + en.safetyDemand then some .capacity
        else none
      let said := fun o why => s.pet.answers ++ [answerApplicant x o why]
      ∃ t, exec .workItemStart s = .next t ∧ t.pet.work = w ∧ t.form.current = s.form.current
        ∧ (pl.point s.entries = none → t.pet.answers = said .stale none ∧ t.pet.inProgress = none)
        ∧ (∀ a why, pl.point s.entries = some a → refusal = some why →
          t.pet.answers = said .refused (some why) ∧ t.pet.inProgress = none)
        ∧ (∀ a, pl.point s.entries = some a → refusal = none → t.pet.answers = said .accepted none
          ∧ t.pet.inProgress = some (.enroll x en pl) ∧ t.form.procedure = some .announce
          ∧ t.form.pendingT = some (Table.mk s.nextEpoch
              (grantRates s.settings.period (insertEntry s.entries a en)))))

/-- CELL_START takes each slot start once, in order; in the own petition cell a SYNCED member with no want sends kind NONE
on an ACTIVE end with a free transmitter (R24, R28, R87), and with wants the oldest, which stays queued (R87). At slot 0 a
leader in STEADY sends three entries of the current table with its oldest answer, and the roll pointer passes on (R53,
R96). In a channel cell of its position a part sends its live copy (R151). In the applicant cell of its round an ENROLLING
applicant sends its ENROLL (R122, R123), and none where it has sent one in that round; that a round is told by its round count
is the model's (DESIGN CHOICE, log 115). -/
def Obligations.CellStartSendsPetition : Prop :=
  ∀ (s : State), s.powered = true → s.timer.lock ≠ .idle → s.timer.nextSlot < s.slots →
    let slot := s.timer.nextSlot
    let k := 40 + 100 * s.timer.nextSlot - s.timer.counter
    let u := s.advance (40 + 100 * s.timer.nextSlot - s.timer.counter)
    ∃ t, exec .cellStart s = .next t ∧ t.timer.nextSlot = s.timer.nextSlot + 1
      ∧ t.timer.counter = max s.timer.counter (40 + 100 * s.timer.nextSlot) ∧ t.timer.index = s.timer.index
      ∧ (∀ e, s.form.node = .member → s.synced = true → s.timer.kind = .marked → s.pet.queue = [] →
        petitionCell s.ownPosition = (s.timer.nextSlot, s.timer.index) → s.condition e = .active →
        (u.endUnit e).sending = none → (u.endUnit e).waiting = none →
        let os := petitionRecord s.ownPosition s.ownTag .none (s.sideOf e)
        (t.endUnit e).sending = some { record := { octets := os, heard := none }, ends := u.now + os.length })
      ∧ (∀ e w rest b, s.form.node = .member → s.synced = true → s.timer.kind = .marked → s.pet.queue = w :: rest →
        s.bodyOf w = some b → petitionCell s.ownPosition = (slot, s.timer.index) → SendsAtOnce s e k →
        SendsOwn t e (petitionRecord s.ownPosition s.ownTag b (s.sideOf e))
          ∧ t.pet.queue = s.pet.queue.map fun x => if x.is w.kind w.wantEnd then x.sent else x)
      ∧ (∀ e tb i, s.leading = true → slot = 0 → s.timer.latched.map MarkFields.procedure = some .steady →
        s.form.current = some tb → s.form.rollPointer = some { table := 0, index := i } → SendsAtOnce s e k →
        let roll := fun (a : Option RollAnswer) => rollRecord
          { kind := .current, epoch := tb.epoch, size := tb.size, first := i, answer := a,
            entries := (List.range 3).filterMap fun j => entryAt tb.entries (i + j) } (s.sideOf e)
        t.form.rollPointer = some { table := 0, index := if tb.size < i + 3 then 1 else i + 3 }
          ∧ (s.pet.answers = [] → SendsOwn t e (roll none) ∧ t.pet.answers = [])
          ∧ (∀ a rest r, s.pet.answers = a :: rest → a.carried s.entries = some r →
            SendsOwn t e (roll (some r)) ∧ t.pet.answers = rest))
      ∧ (∀ e p c l tb, s.leading = true ∧ slot ≠ 0 ∨ s.form.node = .member ∧ s.synced = true ∧ s.timer.kind = .marked
          ∧ petitionCell s.ownPosition ≠ (slot, s.timer.index) →
        s.planner.inForce = some p → p.owner slot s.timer.index = some c → c.position = s.ownPosition →
        s.chan.live.find? (fun l => l.channel == c.channel) = some l → s.form.current = some tb → SendsAtOnce s e k →
        SendsOwn t e (channelRecord { source := s.ownPosition, channel := c.channel, epoch := tb.epoch, age := l.age,
                                      stale := l.stale, payload := l.payload } (s.sideOf e)))
      ∧ (∀ e a p o m, s.form.node = .applicant → s.timer.kind = .marked → s.form.applicant = some a →
        a.status = .enrolling → a.place = some p → a.orientation = some o → s.timer.latched = some m →
        applicantCell m.n = some (slot, s.timer.index) →
        s.timer.round.toNat % 8 = s.ownTag.toNat / 8 ^ a.attempt % 8 → (s.endUnit e).mode = .line →
        (u.endUnit e).sending = none → (u.endUnit e).waiting = none → a.sentRound ≠ some s.timer.round →
        SendsOwn t e (petitionRecord 0 s.ownTag (.enroll p (s.wouldBeEntry p o)) (o.sideOf e))
          ∧ t.form.applicant =
            some { a with roundStarts := some 0, enrollSlot := some slot, sentRound := some s.timer.round })
      ∧ (∀ e a, s.form.node = .applicant → s.form.applicant = some a → a.sentRound = some s.timer.round →
        t.form.applicant = some a ∧ (t.endUnit e).sending = (u.endUnit e).sending
          ∧ (t.endUnit e).waiting = (u.endUnit e).waiting)

/-! ## The follower's cycles -/

/-- FLYWHEEL_START in a SYNCED MEMBER: at the window's close, W ticks after the expected mark; the cycle is a FLYWHEEL one,
the reference moves on by P, the missed count rises unless an early mark was seen, the roll slot start is taken where
the counter starts at 40 or more (R26, R35, R36, R37). COASTING_START in an ORPHAN: the cycle is a FLYWHEEL one at the expected
instant, the missed count rises, no more than 255 (R35, R40). At both every receive age rises by one, no more than 255 (R156).
The whole timer is stated, but for the coasting cycle's latched
fields (DESIGN CHOICE, log 68). WINDOW_OPENS clears the early hold and nothing else of the timer but its count (R36). -/
def Obligations.FollowerStartsWithoutMark : Prop :=
  (
    ∀ (s : State) (r p : Nat), s.powered = true → s.synced = true → s.followStart = some .flywheel →
      s.timer.reference = some r → s.timer.period = some p → s.now ≤ s.windowClose →
      ∃ t, exec .flywheelStart s = .next t ∧ t.now = r + p + s.settings.tolerance ∧ t.timer.lock = .flywheel
        ∧ t.timer.kind = .flywheel ∧ t.timer.counter = 4 * s.timer.refHop + s.settings.tolerance
        ∧ t.timer.reference = some (r + p) ∧ t.timer.index = (s.timer.index + 1) % 4
        ∧ t.timer.missed = (if s.timer.earlySeen then s.timer.missed else min 255 (s.timer.missed + 1))
        ∧ t.timer = { s.timer with
            lock := .flywheel, kind := .flywheel, acceptEnd := none, reference := some (r + p)
            counter := 4 * s.timer.refHop + s.settings.tolerance
            index := (s.timer.index + 1) % 4, round := t.timer.round, missed := t.timer.missed
            latched := s.timer.latched.map fun m => { m with index := (s.timer.index + 1) % 4, round := t.timer.round }
            early := if s.timer.earlySeen ∨ s.timer.early = 3 then s.timer.early else 0
            earlyHold := false, earlySeen := false
            nextSlot := if 40 ≤ 4 * s.timer.refHop + s.settings.tolerance then 1 else 0 }
        ∧ t.timer.round = (if (s.timer.index + 1) % 4 = 0 then s.timer.round + 1 else s.timer.round)
        ∧ (t.chan.image.map fun cs => cs.map ImageCell.receiveAge) =
            s.chan.image.map fun cs => cs.map fun x => min 255 (x.receiveAge + 1))
  ∧ (
    ∀ (s : State) (r p : Nat), s.powered = true → s.form.node = .orphan → s.followStart = some .coasting →
      s.timer.reference = some r → s.timer.period = some p →
      ∃ t, exec .coastingStart s = .next t ∧ t.form.node = .orphan ∧ t.timer.lock = .acquiring
        ∧ t.timer.kind = .flywheel ∧ t.timer.counter = 4 * s.timer.refHop ∧ t.timer.reference = some (r + p)
        ∧ t.timer.index = (s.timer.index + 1) % 4 ∧ t.timer.missed = min 255 (s.timer.missed + 1)
        ∧ t.timer = { s.timer with
            kind := .flywheel, acceptEnd := none, reference := some (r + p), counter := 4 * s.timer.refHop
            index := (s.timer.index + 1) % 4, missed := min 255 (s.timer.missed + 1)
            round := if (s.timer.index + 1) % 4 = 0 then s.timer.round + 1 else s.timer.round
            latched := t.timer.latched, nextSlot := if 40 ≤ 4 * s.timer.refHop then 1 else 0 }
        ∧ (s.now ≤ r + p → t.now = r + p)
        ∧ (t.chan.image.map fun cs => cs.map ImageCell.receiveAge) =
            s.chan.image.map fun cs => cs.map fun x => min 255 (x.receiveAge + 1))
  ∧ (
    ∀ s : State, s.powered = true → s.timer.lock = .locked ∨ s.timer.lock = .flywheel → s.timer.reference ≠ none →
      ∃ t, exec .windowOpens s = .next t ∧ t.timer.earlyHold = false ∧ t.timer.early = s.timer.early
        ∧ t.timer.earlySeen = s.timer.earlySeen ∧ t.timer.lock = s.timer.lock ∧ t.timer.index = s.timer.index
        ∧ t.timer = { s.timer with counter := s.timer.counter + (s.windowOpen - s.now), earlyHold := false }
        ∧ t.pet.queue = s.pet.queue ∧ t.form.current = s.form.current)

/-- ORPHAN_ENTRY: a SYNCED member without fast-path mark is ORPHAN in ACQUIRING and keeps its wants; with the mark it
leads the remnant under the epoch above the followed one: from its own position through the outer end beyond its end
that is not upstream (R39, R42, R88, R144). The run of a part without an upstream end is the model's (DEDUCED, log 48).
SUCCESSION: the orphan enters LEAD with its table less the lost leader's entry, under the epoch above the followed one
(R51, R146). -/
def Obligations.OrphansAndTheirLeaders : Prop :=
  (
    ∀ s : State, s.powered = true → s.followStart = some .orphanEntry → s.timer.reference ≠ none → s.synced = true →
      (s.form.fastPath = none → ∃ t, exec .orphanEntry s = .next t ∧ t.form.node = .orphan
        ∧ t.timer.lock = .acquiring ∧ t.form.current = s.form.current ∧ t.pet.queue = s.pet.queue.map Want.rewind)
      ∧ (∀ cap ep, s.form.fastPath = some cap → s.timer.followed.map Prod.snd = some ep →
        ∃ t, exec .orphanEntry s = .next t ∧ t.form.node = .lead ∧ t.form.fastPath = none
          ∧ t.form.led.map (fun l => l.table.epoch) = some (ep + 1)
          ∧ (let leads := fun run =>
              t.form.led.map (fun l => l.table.entries) = some (grantKept s.settings.period s.ownTag run)
            (∀ e, s.upstream = some e → s.sideOf e = .ref → leads (keepRun s.entries s.ownPosition s.n))
            ∧ (∀ e, s.upstream = some e → s.sideOf e = .far → leads (keepRun s.entries 1 s.ownPosition))
            ∧ (s.upstream = none → leads (keepRun s.entries s.ownPosition s.n)))))
  ∧ (
    ∀ (s : State) (l : Tag) (ep : Epoch), s.powered = true → s.followStart = some .succession →
      s.timer.reference ≠ none → s.timer.followed = some (l, ep) → holdsTag s.entries l = true →
      positionOf s.entries l ≠ 0 →
      ∃ t led, exec .succession s = .next t ∧ t.form.node = .lead ∧ t.form.led = some led ∧ led.by_ = .succession
        ∧ led.table = Table.mk (ep + 1) (grantKept s.settings.period s.ownTag
            (removePosition s.entries (positionOf s.entries l))))

/-- YIELD_SEEK_ENTRY: a SYNCED member with a yield record enters SEEK for the principal named there, with its deadline 64
old periods after the reference (R42, R111, R113).
Where the deadline counts from is DEDUCED (log 16). -/
def Obligations.YieldRecordLeadsToSeek : Prop :=
  ∀ (s : State) (y : YieldRecord) (f : Tag × Epoch) (r p : Nat), s.powered = true →
    s.followStart = some .yieldSeek → s.synced = true → s.form.yieldRecord = some y → s.timer.followed = some f →
    s.timer.reference = some r → s.timer.period = some p →
    ∃ t k, exec .yieldSeekEntry s = .next t ∧ t.form.node = .seek ∧ t.form.seek = some k
      ∧ k.principal = y.principal ∧ k.oldLeader = f.1 ∧ k.oldEpoch = f.2 ∧ k.oldPeriod = p ∧ k.formerLead = false
      ∧ k.deadline = r + p + 64 * p ∧ t.timer.lock = .acquiring ∧ t.timer.missed = 1 ∧ t.form.yieldRecord = none

/-- The seek deadlines: a former leader leads its own table again in STEADY under the epoch above the old one, a former member
returns to its old leader and epoch as ORPHAN in ACQUIRING; the joint end is segregated (R7, R116, R117). -/
def Obligations.SeekDeadlinesResume : Prop :=
  ∀ (s : State) (k : SeekRecord), s.powered = true → s.form.node = .seek → s.form.seek = some k →
    (k.formerLead = true → ∃ t led, exec .seekDeadlineResume s = .next t ∧ t.form.node = .lead
      ∧ t.form.led = some led ∧ led.by_ = .resume ∧ led.table.epoch = k.oldEpoch + 1
      ∧ led.table.entries = grantKept s.settings.period s.ownTag s.entries ∧ t.form.seek = none
      ∧ t.form.procedure = some .steady ∧ t.form.countdown = 0 ∧ t.form.otherTag = none
      ∧ (∀ e, k.jointEnd = some e → (t.endUnit e).segregated = true))
    ∧ (k.formerLead = false → ∃ t, exec .seekDeadlineOrphan s = .next t ∧ t.form.node = .orphan
      ∧ t.timer.lock = .acquiring ∧ t.timer.followed = some (k.oldLeader, k.oldEpoch) ∧ t.timer.missed = 0
      ∧ t.form.seek = none ∧ t.form.current = s.form.current
      ∧ (∀ e, k.jointEnd = some e → (t.endUnit e).segregated = true))

/-- ENROLL_ATTEMPT_ADVANCE: the attempt number rises, from 15 back to 0, and the round-start count is none (R122). -/
def Obligations.AttemptNumberAdvances : Prop :=
  ∀ (s : State) (a : ApplicantRecord), s.powered = true → s.form.node = .applicant → s.form.applicant = some a →
    a.status = .enrolling → a.roundStarts = some 8 →
    ∃ t, exec .enrollAttemptAdvance s = .next t ∧ t.form.node = .applicant ∧ t.timer = s.timer
      ∧ t.form.applicant = some { a with attempt := (a.attempt + 1) % 16, roundStarts := none }
end

