-- ==== Sys2Proof/Laws/State.lean ====
section
/-! SUPPORT. What each update of the state does to each field, true by unfolding. -/

namespace Sys2Proof.Machine

open Sys2Proof

/-! ## End units -/

@[simp] theorem State.endUnit_setEnd (s : State) (e : EndId) (u : EndUnit) : (s.setEnd e u).endUnit e = u := by cases e <;> rfl
@[simp] theorem State.endUnit_setEnd_other (s : State) (e : EndId) (u : EndUnit) : (s.setEnd e u).endUnit e.other = s.endUnit e.other := by cases e <;> rfl
@[simp] theorem State.setEnd_powered (s : State) (e : EndId) (u : EndUnit) : (s.setEnd e u).powered = s.powered := by cases e <;> rfl
@[simp] theorem State.setEnd_now (s : State) (e : EndId) (u : EndUnit) : (s.setEnd e u).now = s.now := by cases e <;> rfl
@[simp] theorem State.setEnd_timer (s : State) (e : EndId) (u : EndUnit) : (s.setEnd e u).timer = s.timer := by cases e <;> rfl
@[simp] theorem State.setEnd_form (s : State) (e : EndId) (u : EndUnit) : (s.setEnd e u).form = s.form := by cases e <;> rfl
@[simp] theorem State.setEnd_planner (s : State) (e : EndId) (u : EndUnit) : (s.setEnd e u).planner = s.planner := by cases e <;> rfl
@[simp] theorem State.setEnd_pet (s : State) (e : EndId) (u : EndUnit) : (s.setEnd e u).pet = s.pet := by cases e <;> rfl
@[simp] theorem State.setEnd_chan (s : State) (e : EndId) (u : EndUnit) : (s.setEnd e u).chan = s.chan := by cases e <;> rfl
@[simp] theorem State.setEnd_store (s : State) (e : EndId) (u : EndUnit) : (s.setEnd e u).store = s.store := by cases e <;> rfl
@[simp] theorem State.setEnd_link (s : State) (e : EndId) (u : EndUnit) : (s.setEnd e u).link = s.link := by cases e <;> rfl
@[simp] theorem State.setEnd_outbox (s : State) (e : EndId) (u : EndUnit) : (s.setEnd e u).outbox = s.outbox := by cases e <;> rfl
@[simp] theorem State.setEnd_pending (s : State) (e : EndId) (u : EndUnit) : (s.setEnd e u).pending = s.pending := by cases e <;> rfl
@[simp] theorem State.endUnit_mapEnd (s : State) (e : EndId) (g : EndUnit → EndUnit) : (s.mapEnd e g).endUnit e = g (s.endUnit e) := by cases e <;> rfl
@[simp] theorem State.endUnit_mapEnd_other (s : State) (e : EndId) (g : EndUnit → EndUnit) : (s.mapEnd e g).endUnit e.other = s.endUnit e.other := by cases e <;> rfl
@[simp] theorem State.mapEnd_powered (s : State) (e : EndId) (g : EndUnit → EndUnit) : (s.mapEnd e g).powered = s.powered := by cases e <;> rfl
@[simp] theorem State.mapEnd_now (s : State) (e : EndId) (g : EndUnit → EndUnit) : (s.mapEnd e g).now = s.now := by cases e <;> rfl
@[simp] theorem State.mapEnd_timer (s : State) (e : EndId) (g : EndUnit → EndUnit) : (s.mapEnd e g).timer = s.timer := by cases e <;> rfl
@[simp] theorem State.mapEnd_form (s : State) (e : EndId) (g : EndUnit → EndUnit) : (s.mapEnd e g).form = s.form := by cases e <;> rfl
@[simp] theorem State.mapEnd_planner (s : State) (e : EndId) (g : EndUnit → EndUnit) : (s.mapEnd e g).planner = s.planner := by cases e <;> rfl
@[simp] theorem State.mapEnd_pet (s : State) (e : EndId) (g : EndUnit → EndUnit) : (s.mapEnd e g).pet = s.pet := by cases e <;> rfl
@[simp] theorem State.mapEnd_chan (s : State) (e : EndId) (g : EndUnit → EndUnit) : (s.mapEnd e g).chan = s.chan := by cases e <;> rfl
@[simp] theorem State.mapEnd_store (s : State) (e : EndId) (g : EndUnit → EndUnit) : (s.mapEnd e g).store = s.store := by cases e <;> rfl
@[simp] theorem State.mapEnd_link (s : State) (e : EndId) (g : EndUnit → EndUnit) : (s.mapEnd e g).link = s.link := by cases e <;> rfl
@[simp] theorem State.mapEnd_outbox (s : State) (e : EndId) (g : EndUnit → EndUnit) : (s.mapEnd e g).outbox = s.outbox := by cases e <;> rfl
@[simp] theorem State.mapEnd_pending (s : State) (e : EndId) (g : EndUnit → EndUnit) : (s.mapEnd e g).pending = s.pending := by cases e <;> rfl

/-! ## Notices, flags, replies -/

@[simp] theorem State.notify_powered (s : State) (r : Nat) (b : NoticeBody) : (s.notify r b).powered = s.powered := rfl
@[simp] theorem State.notify_now (s : State) (r : Nat) (b : NoticeBody) : (s.notify r b).now = s.now := rfl
@[simp] theorem State.notify_e1 (s : State) (r : Nat) (b : NoticeBody) : (s.notify r b).e1 = s.e1 := rfl
@[simp] theorem State.notify_e2 (s : State) (r : Nat) (b : NoticeBody) : (s.notify r b).e2 = s.e2 := rfl
@[simp] theorem State.notify_timer (s : State) (r : Nat) (b : NoticeBody) : (s.notify r b).timer = s.timer := rfl
@[simp] theorem State.notify_form (s : State) (r : Nat) (b : NoticeBody) : (s.notify r b).form = s.form := rfl
@[simp] theorem State.notify_planner (s : State) (r : Nat) (b : NoticeBody) : (s.notify r b).planner = s.planner := rfl
@[simp] theorem State.notify_pet (s : State) (r : Nat) (b : NoticeBody) : (s.notify r b).pet = s.pet := rfl
@[simp] theorem State.notify_chan (s : State) (r : Nat) (b : NoticeBody) : (s.notify r b).chan = s.chan := rfl
@[simp] theorem State.notify_store (s : State) (r : Nat) (b : NoticeBody) : (s.notify r b).store = s.store := rfl
@[simp] theorem State.notify_link (s : State) (r : Nat) (b : NoticeBody) : (s.notify r b).link = s.link := rfl
@[simp] theorem State.notify_pending (s : State) (r : Nat) (b : NoticeBody) : (s.notify r b).pending = s.pending := rfl
@[simp] theorem State.notify_outbox (s : State) (r : Nat) (b : NoticeBody) : (s.notify r b).outbox = s.outbox ++ [(r, b)] := rfl
@[simp] theorem State.setFlags_powered (s : State) (g : StickyFlags → StickyFlags) : (s.setFlags g).powered = s.powered := rfl
@[simp] theorem State.reply_powered (s : State) (fr : Frame) (o : Outcome) (b : ReplyBody) : (s.reply fr o b).powered = s.powered := rfl
@[simp] theorem State.setFlags_now (s : State) (g : StickyFlags → StickyFlags) : (s.setFlags g).now = s.now := rfl
@[simp] theorem State.reply_now (s : State) (fr : Frame) (o : Outcome) (b : ReplyBody) : (s.reply fr o b).now = s.now := rfl
@[simp] theorem State.setFlags_e1 (s : State) (g : StickyFlags → StickyFlags) : (s.setFlags g).e1 = s.e1 := rfl
@[simp] theorem State.reply_e1 (s : State) (fr : Frame) (o : Outcome) (b : ReplyBody) : (s.reply fr o b).e1 = s.e1 := rfl
@[simp] theorem State.setFlags_e2 (s : State) (g : StickyFlags → StickyFlags) : (s.setFlags g).e2 = s.e2 := rfl
@[simp] theorem State.reply_e2 (s : State) (fr : Frame) (o : Outcome) (b : ReplyBody) : (s.reply fr o b).e2 = s.e2 := rfl
@[simp] theorem State.setFlags_timer (s : State) (g : StickyFlags → StickyFlags) : (s.setFlags g).timer = s.timer := rfl
@[simp] theorem State.reply_timer (s : State) (fr : Frame) (o : Outcome) (b : ReplyBody) : (s.reply fr o b).timer = s.timer := rfl
@[simp] theorem State.setFlags_form (s : State) (g : StickyFlags → StickyFlags) : (s.setFlags g).form = s.form := rfl
@[simp] theorem State.reply_form (s : State) (fr : Frame) (o : Outcome) (b : ReplyBody) : (s.reply fr o b).form = s.form := rfl
@[simp] theorem State.setFlags_planner (s : State) (g : StickyFlags → StickyFlags) : (s.setFlags g).planner = s.planner := rfl
@[simp] theorem State.reply_planner (s : State) (fr : Frame) (o : Outcome) (b : ReplyBody) : (s.reply fr o b).planner = s.planner := rfl
@[simp] theorem State.setFlags_pet (s : State) (g : StickyFlags → StickyFlags) : (s.setFlags g).pet = s.pet := rfl
@[simp] theorem State.reply_pet (s : State) (fr : Frame) (o : Outcome) (b : ReplyBody) : (s.reply fr o b).pet = s.pet := rfl
@[simp] theorem State.setFlags_chan (s : State) (g : StickyFlags → StickyFlags) : (s.setFlags g).chan = s.chan := rfl
@[simp] theorem State.reply_chan (s : State) (fr : Frame) (o : Outcome) (b : ReplyBody) : (s.reply fr o b).chan = s.chan := rfl
@[simp] theorem State.setFlags_store (s : State) (g : StickyFlags → StickyFlags) : (s.setFlags g).store = s.store := rfl
@[simp] theorem State.reply_store (s : State) (fr : Frame) (o : Outcome) (b : ReplyBody) : (s.reply fr o b).store = s.store := rfl
@[simp] theorem State.setFlags_outbox (s : State) (g : StickyFlags → StickyFlags) : (s.setFlags g).outbox = s.outbox := rfl
@[simp] theorem State.reply_outbox (s : State) (fr : Frame) (o : Outcome) (b : ReplyBody) : (s.reply fr o b).outbox = s.outbox := rfl
@[simp] theorem State.setFlags_pending (s : State) (g : StickyFlags → StickyFlags) : (s.setFlags g).pending = s.pending := rfl
@[simp] theorem State.reply_pending (s : State) (fr : Frame) (o : Outcome) (b : ReplyBody) : (s.reply fr o b).pending = s.pending := rfl
@[simp] theorem State.setFlags_flags (s : State) (g : StickyFlags → StickyFlags) : (s.setFlags g).link.flags = g s.link.flags := rfl
@[simp] theorem State.setFlags_holding (s : State) (g : StickyFlags → StickyFlags) : (s.setFlags g).link.holding = s.link.holding := rfl
@[simp] theorem State.reply_holding (s : State) (fr : Frame) (o : Outcome) (b : ReplyBody) : (s.reply fr o b).link.holding = s.link.holding := rfl
@[simp] theorem State.reply_tx (s : State) (fr : Frame) (o : Outcome) (b : ReplyBody) : (s.reply fr o b).link.tx = s.link.tx := rfl
@[simp] theorem State.reply_notices (s : State) (fr : Frame) (o : Outcome) (b : ReplyBody) : (s.reply fr o b).link.notices = s.link.notices := rfl

/-! ## Images -/

@[simp] theorem State.ageImage_powered (s : State) : s.ageImage.powered = s.powered := rfl
@[simp] theorem State.dropLive_powered (s : State) : s.dropLive.powered = s.powered := rfl
@[simp] theorem State.takeChannel_powered (s : State) (ch : Nat) : (s.takeChannel ch).powered = s.powered := rfl
@[simp] theorem State.ageImage_now (s : State) : s.ageImage.now = s.now := rfl
@[simp] theorem State.dropLive_now (s : State) : s.dropLive.now = s.now := rfl
@[simp] theorem State.takeChannel_now (s : State) (ch : Nat) : (s.takeChannel ch).now = s.now := rfl
@[simp] theorem State.ageImage_e1 (s : State) : s.ageImage.e1 = s.e1 := rfl
@[simp] theorem State.dropLive_e1 (s : State) : s.dropLive.e1 = s.e1 := rfl
@[simp] theorem State.takeChannel_e1 (s : State) (ch : Nat) : (s.takeChannel ch).e1 = s.e1 := rfl
@[simp] theorem State.ageImage_e2 (s : State) : s.ageImage.e2 = s.e2 := rfl
@[simp] theorem State.dropLive_e2 (s : State) : s.dropLive.e2 = s.e2 := rfl
@[simp] theorem State.takeChannel_e2 (s : State) (ch : Nat) : (s.takeChannel ch).e2 = s.e2 := rfl
@[simp] theorem State.ageImage_timer (s : State) : s.ageImage.timer = s.timer := rfl
@[simp] theorem State.dropLive_timer (s : State) : s.dropLive.timer = s.timer := rfl
@[simp] theorem State.takeChannel_timer (s : State) (ch : Nat) : (s.takeChannel ch).timer = s.timer := rfl
@[simp] theorem State.ageImage_form (s : State) : s.ageImage.form = s.form := rfl
@[simp] theorem State.dropLive_form (s : State) : s.dropLive.form = s.form := rfl
@[simp] theorem State.takeChannel_form (s : State) (ch : Nat) : (s.takeChannel ch).form = s.form := rfl
@[simp] theorem State.ageImage_planner (s : State) : s.ageImage.planner = s.planner := rfl
@[simp] theorem State.dropLive_planner (s : State) : s.dropLive.planner = s.planner := rfl
@[simp] theorem State.takeChannel_planner (s : State) (ch : Nat) : (s.takeChannel ch).planner = s.planner := rfl
@[simp] theorem State.ageImage_pet (s : State) : s.ageImage.pet = s.pet := rfl
@[simp] theorem State.dropLive_pet (s : State) : s.dropLive.pet = s.pet := rfl
@[simp] theorem State.takeChannel_pet (s : State) (ch : Nat) : (s.takeChannel ch).pet = s.pet := rfl
@[simp] theorem State.ageImage_store (s : State) : s.ageImage.store = s.store := rfl
@[simp] theorem State.dropLive_store (s : State) : s.dropLive.store = s.store := rfl
@[simp] theorem State.takeChannel_store (s : State) (ch : Nat) : (s.takeChannel ch).store = s.store := rfl
@[simp] theorem State.ageImage_link (s : State) : s.ageImage.link = s.link := rfl
@[simp] theorem State.dropLive_link (s : State) : s.dropLive.link = s.link := rfl
@[simp] theorem State.takeChannel_link (s : State) (ch : Nat) : (s.takeChannel ch).link = s.link := rfl
@[simp] theorem State.ageImage_outbox (s : State) : s.ageImage.outbox = s.outbox := rfl
@[simp] theorem State.dropLive_outbox (s : State) : s.dropLive.outbox = s.outbox := rfl
@[simp] theorem State.takeChannel_outbox (s : State) (ch : Nat) : (s.takeChannel ch).outbox = s.outbox := rfl
@[simp] theorem State.ageImage_pending (s : State) : s.ageImage.pending = s.pending := rfl
@[simp] theorem State.dropLive_pending (s : State) : s.dropLive.pending = s.pending := rfl
@[simp] theorem State.takeChannel_pending (s : State) (ch : Nat) : (s.takeChannel ch).pending = s.pending := rfl

end Sys2Proof.Machine
end

