-- ==== Sys2Proof/Laws/Ops.lean ====
section
/-! SUPPORT. What the shared operations do: time, notices, the transmit path of the car link, and how a step ends. -/

namespace Sys2Proof.Machine

open Sys2Proof

/-! ## Time -/

@[simp] theorem State.advance_planner (s : State) (k : Nat) : (s.advance k).planner = s.planner := by
  unfold State.advance; split <;> rfl

@[simp] theorem State.advance_chan (s : State) (k : Nat) : (s.advance k).chan = s.chan := by
  unfold State.advance; split <;> rfl

@[simp] theorem State.advance_store (s : State) (k : Nat) : (s.advance k).store = s.store := by
  unfold State.advance; split <;> rfl

@[simp] theorem State.advance_link (s : State) (k : Nat) : (s.advance k).link = s.link := by
  unfold State.advance; split <;> rfl

@[simp] theorem State.advance_outbox (s : State) (k : Nat) : (s.advance k).outbox = s.outbox := by
  unfold State.advance; split <;> rfl

@[simp] theorem State.advance_pending (s : State) (k : Nat) : (s.advance k).pending = s.pending := by
  unfold State.advance; split <;> rfl

@[simp] theorem State.advance_powered (s : State) (k : Nat) : (s.advance k).powered = s.powered := by
  unfold State.advance; split <;> rfl

@[simp] theorem State.advance_now (s : State) (k : Nat) : (s.advance k).now = s.now + k := by
  unfold State.advance; split <;> rfl

@[simp] theorem State.advance_node (s : State) (k : Nat) : (s.advance k).form.node = s.form.node := by
  unfold State.advance; split
  · dsimp only; split <;> rfl
  · rfl

/-- Time changes of the formation unit its listen timer only. -/
theorem State.advance_form (s : State) (k : Nat) :
    (s.advance k).form = { s.form with listenTimer := (s.advance k).form.listenTimer } := by
  unfold State.advance; split
  · dsimp only; split <;> rfl
  · rfl

/-- Time changes of the cycle timer its counter only. -/
theorem State.advance_timer (s : State) (k : Nat) :
    (s.advance k).timer = { s.timer with counter := (s.advance k).timer.counter } := by
  unfold State.advance; split
  · dsimp only; split <;> rfl
  · rfl

/-! ## Notices and the car link's transmit path -/

theorem State.joinNotice_only_link (s : State) (b : NoticeBody) : s.joinNotice b = { s with link := (s.joinNotice b).link } := by
  unfold State.joinNotice
  split
  · rfl
  · rfl

/-- Joining notices changes the car link only. -/
theorem joinNotices_only_link (bs : List NoticeBody) (s : State) :
    bs.foldl State.joinNotice s = { s with link := (bs.foldl State.joinNotice s).link } := by
  induction bs generalizing s with
  | nil => rfl
  | cons b bs ih =>
    rw [List.foldl_cons, ih (s.joinNotice b)]
    generalize (List.foldl State.joinNotice (s.joinNotice b) bs).link = l
    rw [State.joinNotice_only_link s b]

/-- A flush changes the car link and empties the outbox. -/
theorem State.flushNotices_only (s : State) :
    s.flushNotices = { s with outbox := [], link := s.flushNotices.link } := by
  unfold State.flushNotices
  exact joinNotices_only_link _ _

/-- With nothing noticed a flush changes nothing. -/
theorem State.flushNotices_empty (s : State) (h : s.outbox = []) : s.flushNotices = s := by
  have e : s.flushNotices = { s with outbox := [] } := by simp [State.flushNotices, h]
  rw [e, ← h]

/-- Beginning a frame changes the car link only. -/
theorem State.beginFrame_only_link (s : State) : s.beginFrame = { s with link := s.beginFrame.link } := by
  unfold State.beginFrame
  split
  · split
    · rfl
    · split
      · rfl
      · split <;> rfl
  · rfl

/-- At rest there is no frame to begin. -/
theorem State.beginFrame_atRest (s : State) (h : AtRest s) : s.beginFrame = s := by
  unfold State.beginFrame
  split
  · rename_i ht
    obtain ⟨hr, hn⟩ := h.2 ht
    rw [hr]
    dsimp only
    split
    · rfl
    · rename_i hq
      rcases hn with hn | hn
      · rw [hn]
      · exact absurd hn hq
  · rfl

/-- A begun frame leaves the link at rest. -/
theorem State.atRest_beginFrame (s : State) (h : s.outbox = []) : AtRest s.beginFrame := by
  refine ⟨by rw [State.beginFrame_only_link]; exact h, fun ht => ?_⟩
  unfold State.beginFrame at ht ⊢
  split at ht <;> rename_i h1
  · split at ht
    · cases ht
    · split at ht
      · rename_i h3; simp_all
      · split at ht
        · simp_all
        · cases ht
  · simp_all

/-! ## How a step ends -/

/-- Where no condition changes the transmit paths stay. -/
theorem State.recondition_same (b s : State) (h : ∀ e, b.condition e = s.condition e) : State.recondition b s = s := by
  unfold State.recondition
  simp [h]

/-- Where detection keeps its standing conditions it stays. -/
theorem State.restDetection_same (b s : State) (h : ∀ e, b.detectable e = true → s.detectable e = true)
    (ho : ∀ e, b.outermost e = true → s.outermost e = true) : State.restDetection b s = s := by
  have keeps : ∀ {p q : Bool}, (p = true → q = true) → (p && !q) = false := by decide
  have one : ∀ e, s.mapEnd e (EndUnit.rest (b.detectable e && !s.detectable e) (b.outermost e && !s.outermost e)) = s := by
    intro e
    rw [keeps (h e), keeps (ho e)]
    cases e <;> rfl
  unfold State.restDetection
  simp only [one]

/-- How a step ends that changes no condition, no standing condition of detection, and notices nothing. -/
theorem settle_quiet (b s : State) (hc : ∀ e, b.condition e = s.condition e)
    (hd : ∀ e, b.detectable e = true → s.detectable e = true)
    (hu : ∀ e, b.outermost e = true → s.outermost e = true) (ho : s.outbox = []) : State.settle b s = s.beginFrame := by
  unfold State.settle
  rw [State.restDetection_same b s hd hu, State.recondition_same b s hc, State.flushNotices_empty s ho]

/-- However a step ends, the car link is at rest. -/
theorem settle_atRest (b s : State) : AtRest (State.settle b s) := by
  unfold State.settle
  refine State.atRest_beginFrame _ ?_
  rw [State.flushNotices_only]

/-- A step that only moved time, made no notice and left the link at rest ends as it stands. -/
theorem settle_link_only (b s : State) (h1 : s.form = b.form) (h2 : s.e1 = b.e1) (h3 : s.e2 = b.e2)
    (h4 : s.powered = b.powered) (ho : s.outbox = []) : State.settle b s = s.beginFrame := by
  have hu : ∀ e, s.endUnit e = b.endUnit e := by intro e; cases e <;> simp [State.endUnit, h2, h3]
  refine settle_quiet b s (fun e => ?_) (fun e he => ?_) (fun e he => ?_) ho
  · simp [State.condition, h1, hu, h4]
  · simpa [State.detectable, State.outermost, State.outer, h1, hu] using he
  · simpa [State.outermost, State.outer, h1] using he

/-- What it is to be armed complete (R63). -/
theorem State.armedComplete_iff (s : State) : s.armedComplete = true ↔ ∃ a b ep,
    s.form.armedA = some a ∧ s.form.armedB = some b ∧ s.workingEpoch = some ep ∧ a.epoch = ep + 1 ∧ b.epoch = ep + 1 := by
  unfold State.armedComplete
  split <;> simp_all [armedUnder]

end Sys2Proof.Machine
end

