-- ==== Sys2Proof/Laws/Frame.lean ====
section
/-! SUPPORT. The parts of the state that no operation of the lines and the clock touches, one lemma per operation. -/

namespace Sys2Proof.Machine

open Sys2Proof

/-- The spared parts, the transmit path of the car link, which only the end of a step moves, and what the ends sense. -/
structure Shell where
  spared : Spared
  tx : LinkTx
  sense1 : Sense
  sense2 : Sense

/-- The shell of a state. -/
def State.shell (s : State) : Shell :=
  { spared := s.spared, tx := s.link.tx, sense1 := s.e1.sense, sense2 := s.e2.sense }

/-- An end unit that senses the same is in the same mode. -/
theorem EndUnit.mode_of_sense {u v : EndUnit} (h : u.sense = v.sense) : u.mode = v.mode := congrArg Sense.mode h

/-! ## End units, time, notices, flags -/

theorem State.mapEnd_shell (s : State) (e : EndId) (f : EndUnit → EndUnit) (h : ∀ u, (f u).sense = u.sense) :
    (s.mapEnd e f).shell = s.shell := by
  have hm : ∀ u, (f u).mode = u.mode := fun u => EndUnit.mode_of_sense (h u)
  cases e <;> simp [State.shell, State.spared, State.mapEnd, State.setEnd, State.endUnit, h, hm]

theorem EndUnit.sendWaiting_sense (u : EndUnit) : u.sendWaiting.sense = u.sense := by
  unfold EndUnit.sendWaiting; split <;> rfl

theorem EndUnit.transmit_sense (now : Nat) (r : TxRecord) (u : EndUnit) : (u.transmit now r).sense = u.sense := by
  unfold EndUnit.transmit; split <;> rfl

theorem EndUnit.relay_sense (u : EndUnit) : u.relay.sense = u.sense := by
  unfold EndUnit.relay; split
  · exact EndUnit.transmit_sense _ _ _
  · rfl

theorem EndUnit.sendNext_sense (t : Nat) (u : EndUnit) : (u.sendNext t).sense = u.sense := by
  have h : ∀ a b : Bool, (if a then u.relay else if b then u.sendWaiting else u).sense = u.sense := by
    intro a b
    cases a <;> cases b <;> simp [EndUnit.relay_sense, EndUnit.sendWaiting_sense]
  exact h _ _

theorem EndUnit.sentBy_sense (t : Nat) (u : EndUnit) : (u.sentBy t).sense = u.sense := by
  simp [EndUnit.sentBy, EndUnit.sendNext_sense]

theorem EndUnit.countTicks_sense (t : Nat) (u : EndUnit) : (u.countTicks t).sense = u.sense := by
  unfold EndUnit.countTicks; split
  · rfl
  · split <;> rfl

@[simp] theorem State.advance_shell (s : State) (k : Nat) : (s.advance k).shell = s.shell := by
  unfold State.advance
  split <;> simp [State.shell, State.spared, EndUnit.sentBy_sense, EndUnit.countTicks_sense,
    EndUnit.mode_of_sense (EndUnit.sentBy_sense _ _), EndUnit.mode_of_sense (EndUnit.countTicks_sense _ _)]

@[simp] theorem State.advanceTo_shell (s : State) (k : Nat) : (s.advanceTo k).shell = s.shell := State.advance_shell s _

@[simp] theorem State.notify_shell (s : State) (r : Nat) (b : NoticeBody) : (s.notify r b).shell = s.shell := rfl

@[simp] theorem State.setFlags_shell (s : State) (f : StickyFlags → StickyFlags) : (s.setFlags f).shell = s.shell := rfl

@[simp] theorem State.forgetJoins_shell (s : State) : s.forgetJoins.shell = s.shell :=
  (State.mapEnd_shell _ .e2 EndUnit.forgetJoin fun _ => rfl).trans
    (State.mapEnd_shell s .e1 EndUnit.forgetJoin fun _ => rfl)

@[simp] theorem State.lineError_shell (s : State) (e : EndId) : (s.lineError e).shell = s.shell := rfl

@[simp] theorem State.alienMark_shell (s : State) : s.alienMark.shell = s.shell := rfl

@[simp] theorem State.sendRelayed_shell (s : State) (e : EndId) (i k : Nat) (os : List Octet) :
    (s.sendRelayed e i k os).shell = s.shell :=
  State.mapEnd_shell _ _ _ fun _ => rfl

@[simp] theorem State.sendOwnOn_shell (s : State) (e : EndId) (os : List Octet) : (s.sendOwnOn e os).shell = s.shell :=
  State.mapEnd_shell _ _ _ (EndUnit.transmit_sense _ _)

@[simp] theorem State.sendOwn_shell (s : State) (make : Side → List Octet) : (s.sendOwn make).shell = s.shell := by
  unfold State.sendOwn
  dsimp only
  split <;> split <;> simp

/-! ## Channel unit -/

@[simp] theorem State.noticeChanges_shell (s : State) (b : List ImageCell) : (s.noticeChanges b).shell = s.shell := by
  have fold : ∀ (ws : List (Tag × Nat)) (x : State), (ws.foldl (fun s' w =>
      match cellOfTag b w.1 w.2, cellOfTag s.cells w.1 w.2 with
      | some b, some a => if cellChanged b a then s'.notify rankChange (.change (a.report s.capture)) else s'
      | _, _ => s') x).shell = x.shell := by
    intro ws
    induction ws with
    | nil => intro x; rfl
    | cons w ws ih =>
      intro x
      rw [List.foldl_cons, ih]
      split
      · split <;> rfl
      · rfl
  exact fold _ s

@[simp] theorem State.setImage_shell (s : State) (img : List ImageCell) : (s.setImage img).shell = s.shell := by
  unfold State.setImage; simp; rfl

@[simp] theorem State.ageImage_shell (s : State) : s.ageImage.shell = s.shell := rfl

@[simp] theorem State.dropLive_shell (s : State) : s.dropLive.shell = s.shell := rfl

@[simp] theorem State.turnCycle_shell (s : State) : s.turnCycle.shell = s.shell := rfl

@[simp] theorem State.rekey_shell (s : State) (ens : List Entry) : (s.rekey ens).shell = s.shell :=
  State.setImage_shell _ _

@[simp] theorem State.applySuspension_shell (s : State) : s.applySuspension.shell = s.shell := by
  unfold State.applySuspension; split
  · rfl
  · simp

/-- Marking a channel taken leaves every staging copy. -/
theorem staging_set (out : List OutChannel) (ch : Nat) (o : OutChannel)
    (h : o.staging = (out.getD ch OutChannel.initial).staging) :
    (out.set ch o).map OutChannel.staging = out.map OutChannel.staging := by
  apply List.ext_getElem
  · simp
  · intro i h1 h2
    simp only [List.getElem_map, List.getElem_set]
    split
    · rename_i hc; subst hc; simp only [List.length_map] at h2; rw [h, List.getD_eq_getElem _ _ h2]
    · rfl

@[simp] theorem State.takeChannel_shell (s : State) (ch : Nat) : (s.takeChannel ch).shell = s.shell := by
  have h := staging_set s.chan.out ch { s.outOf ch with written := false, age := (s.outOf ch).ageAfter } rfl
  simp only [State.shell, State.spared, State.takeChannel]
  rw [h]

@[simp] theorem State.takeChannels_shell (s : State) : s.takeChannels.shell = s.shell := by
  have fold : ∀ (cs : List Nat) (x : State), (cs.foldl State.takeChannel x).shell = x.shell := by
    intro cs
    induction cs with
    | nil => intro x; rfl
    | cons c cs ih => intro x; rw [List.foldl_cons, ih, State.takeChannel_shell]
  unfold State.takeChannels
  split
  · rfl
  · split
    · rw [State.noticeChanges_shell, fold]
    · rfl

@[simp] theorem State.takeChannelRecord_shell (s : State) (e : EndId) (c : ChannelFields) :
    (s.takeChannelRecord e c).shell = s.shell := by
  unfold State.takeChannelRecord
  repeat' split
  all_goals simp

@[simp] theorem State.sendChannel_shell (s : State) (ch : Nat) : (s.sendChannel ch).shell = s.shell := by
  unfold State.sendChannel; split <;> simp

/-! ## Answers -/

@[simp] theorem State.dropWant_shell (s : State) (k : WantKind) (e : Option EndId) : (s.dropWant k e).shell = s.shell := rfl

@[simp] theorem State.rewindWants_shell (s : State) : s.rewindWants.shell = s.shell := rfl

@[simp] theorem State.rewindJoinSeen_shell (s : State) (e : Option EndId) : (s.rewindJoinSeen e).shell = s.shell := rfl

@[simp] theorem State.discardWants_shell (s : State) : s.discardWants.shell = s.shell := by
  have fold : ∀ (ws : List Want) (x : State), (ws.foldl (fun (s : State) (w : Want) =>
      match w with
      | .split _ _ _ => s.notify rankStale (.splitOutcome .split (.answer .stale none))
      | .splitCancel _ _ _ => s.notify rankStale (.splitOutcome .splitCancel (.answer .stale none))
      | .cabClaim | .cabRelease | .heading _ => s.notify rankStale (.petitionAnswer w.kind .stale none)
      | .joinSeen _ _ _ | .foreignQuiet _ _ _ | .principalReady _ | .brk _ _ _ _ => s) x).shell = x.shell := by
    intro ws
    induction ws with
    | nil => intro x; rfl
    | cons w ws ih => intro x; rw [List.foldl_cons, ih]; cases w <;> rfl
  exact fold _ _

theorem EndUnit.takeAnswer_sense (o : AnswerOutcome) (r : Option Reason) (u : EndUnit) :
    (u.takeAnswer o r).sense = u.sense := by
  unfold EndUnit.takeAnswer
  repeat' split
  all_goals first | rfl | (dsimp only; split <;> rfl)

theorem EndUnit.joinAnswer_sense (o : AnswerOutcome) (r : Option Reason) (u : EndUnit) :
    (u.joinAnswer o r).sense = u.sense := EndUnit.takeAnswer_sense o r u

@[simp] theorem State.deliverAs_shell (s : State) (w : Option Want) (k : WantKind) (e : Option EndId)
    (out : AnswerOutcome) (r : Option Reason) : (s.deliverAs w k e out r).shell = s.shell := by
  unfold State.deliverAs
  repeat' split
  all_goals first
    | rfl
    | exact State.mapEnd_shell _ _ _ (EndUnit.joinAnswer_sense _ _)

@[simp] theorem State.deliver_shell (s : State) (k : WantKind) (e : Option EndId) (out : AnswerOutcome)
    (r : Option Reason) : (s.deliver k e out r).shell = s.shell := by
  unfold State.deliver; split <;> simp

@[simp] theorem State.answer_shell (s : State) (a : Answer) : (s.answer a).shell = s.shell := by
  unfold State.answer; split
  · simp
  · rfl

theorem answers_shell (as : List Answer) (s : State) : (as.foldl State.answer s).shell = s.shell := by
  induction as generalizing s with
  | nil => rfl
  | cons a as ih => rw [List.foldl_cons, ih, State.answer_shell]

/-! ## Installation -/

@[simp] theorem State.withShadows_shell (f : FormationUnit) (s : State) : (s.withShadows f).shell = s.shell := rfl

@[simp] theorem State.replan_shell (s : State) : s.replan.shell = s.shell := by
  unfold State.replan
  split
  · split
    · simp; rfl
    · rfl
  · rfl

@[simp] theorem State.formationNotice_shell (s : State) (t : Table) (l : Tag) : (s.formationNotice t l).shell = s.shell := rfl

@[simp] theorem State.installOwn_shell (s : State) (t : Table) : (s.installOwn t).shell = s.shell := by
  unfold State.installOwn; simp; rfl

@[simp] theorem State.loseCab_shell (s : State) : s.loseCab.shell = s.shell := by
  unfold State.loseCab; dsimp only; split <;> rfl

@[simp] theorem State.becomeApplicant_shell (s : State) (t : Table) : (s.becomeApplicant t).shell = s.shell := by
  unfold State.becomeApplicant; simp; rfl

@[simp] theorem State.install_shell (s : State) (t : Table) : (s.install t).shell = s.shell := by
  unfold State.install; split <;> simp

@[simp] theorem State.parted_shell (s : State) (a : Bool) (t : Table) (j : Option (Tag × Tag)) :
    (s.parted a t j).shell = s.shell := rfl

@[simp] theorem State.partedAs_shell (s : State) (f : Table × Option Bool) (j : Option (Tag × Tag)) :
    (s.partedAs f j).shell = s.shell := by
  unfold State.partedAs; split <;> rfl

@[simp] theorem State.completeTables_shell (s : State) : s.completeTables.shell = s.shell := rfl

@[simp] theorem State.gatherAnew_shell (s : State) (ep : Epoch) : (s.gatherAnew ep).shell = s.shell := rfl

@[simp] theorem State.compareCab_shell (s : State) : s.compareCab.shell = s.shell := by
  unfold State.compareCab; dsimp only; split <;> (split <;> rfl)

theorem EndUnit.rest_sense (p q : Bool) (u : EndUnit) : (u.rest p q).sense = u.sense := by cases p <;> cases q <;> rfl

@[simp] theorem State.restDetection_shell (b s : State) : (State.restDetection b s).shell = s.shell := by
  have one : ∀ (x : State) (e : EndId) (p q : Bool), (x.mapEnd e (EndUnit.rest p q)).shell = x.shell :=
    fun x e p q => State.mapEnd_shell _ _ _ (EndUnit.rest_sense p q)
  unfold State.restDetection
  exact (one _ _ _ _).trans (one _ _ _ _)

end Sys2Proof.Machine
end

