-- ==== Sys2Proof/Laws/FrameLeader.lean ====
section
/-! SUPPORT. The operations of a leader leave the parts that the car link, the supply and the store own. -/

namespace Sys2Proof.Machine

open Sys2Proof

/-! ## Wants taken -/

theorem State.place_shell {s t : State} {it : WorkItem} (h : s.place it = some t) : t.shell = s.shell := by
  unfold State.place at h
  obtain ⟨w, -, rfl⟩ := Option.map_eq_some_iff.mp h
  rfl

theorem State.decideClaim_shell (s : State) (t : Tag) : (s.decideClaim t).1.shell = s.shell := by
  unfold State.decideClaim
  repeat' split
  all_goals rfl

theorem State.decideRelease_shell (s : State) (t : Tag) : (s.decideRelease t).1.shell = s.shell := by
  unfold State.decideRelease; split <;> rfl

theorem State.decideHeading_shell (s : State) (t : Tag) (d : Direction) : (s.decideHeading t d).1.shell = s.shell := by
  unfold State.decideHeading; split <;> rfl

@[simp] theorem State.announce_shell (s : State) (ens : List Entry) : (s.announce ens).shell = s.shell := rfl

@[simp] theorem State.steady_shell (s : State) : s.steady.shell = s.shell := rfl

@[simp] theorem State.steadyNext_shell (s : State) : s.steadyNext.shell = s.shell := rfl

@[simp] theorem State.endSplit_shell (s : State) : s.endSplit.shell = s.shell := rfl

@[simp] theorem State.endJoin_shell (s : State) : s.endJoin.shell = s.shell := rfl

@[simp] theorem State.disarm_shell (s : State) (sp : SplitRecord) (r : Reason) : (s.disarm sp r).shell = s.shell := by
  simp [State.disarm]

theorem State.answered_shell {s t : State} {as : List Answer} {f : State → State} (h : s.answered as f = some t)
    (hf : (f s).shell = s.shell) : t.shell = s.shell := by
  unfold State.answered at h
  split at h
  · cases h; rw [answers_shell, hf]
  · cases h

theorem State.takeSplit_shell {s t : State} {x : Tag} {p : Nat} (h : s.takeSplit x p = some t) : t.shell = s.shell := by
  unfold State.takeSplit at h
  repeat' split at h
  all_goals first
    | exact State.answered_shell h rfl
    | exact State.place_shell h
    | (cases h; rfl)
    | cases h

theorem State.takeSplitCancel_shell {s t : State} {x : Tag} {p : Nat} (h : s.takeSplitCancel x p = some t) :
    t.shell = s.shell := by
  unfold State.takeSplitCancel at h
  split at h
  · cases h
  · dsimp only at h
    repeat' split at h
    all_goals exact State.answered_shell h rfl

theorem State.takeBreak_shell {s t : State} {x : Tag} {e : EndId} {c : Cause} {cap : Capture} {fx : Bool}
    (h : s.takeBreak x e c cap fx = some t) : t.shell = s.shell := by
  unfold State.takeBreak at h
  dsimp only at h
  repeat' split at h
  all_goals first
    | exact State.place_shell h
    | (cases h; rfl)

@[simp] theorem State.placeJoin_shell (s : State) (j : JoinAssembly) : (s.placeJoin j).shell = s.shell := by
  unfold State.placeJoin
  split
  · cases h : s.place (.join j.reporter j.reporterEnd j.report) with
    | none => rfl
    | some t => exact State.place_shell h
  · rfl

theorem State.takeFragment_shell {s t : State} {x : Tag} {e : EndId} {hd : JoinHeader} {ens : List Entry}
    (h : s.takeFragment x e hd ens = some t) : t.shell = s.shell := by
  unfold State.takeFragment at h
  dsimp only at h
  repeat' split at h
  all_goals first
    | exact State.answered_shell h rfl
    | (cases h; rw [State.placeJoin_shell]; rfl)
    | (cases h; rw [State.placeJoin_shell])

theorem State.takeForeignQuiet_shell {s t : State} {x : Tag} {e : EndId} {cab : Nat} {hd : Heading}
    (h : s.takeForeignQuiet x e cab hd = some t) : t.shell = s.shell := by
  unfold State.takeForeignQuiet at h
  dsimp only at h
  repeat' split at h
  all_goals exact State.answered_shell h rfl

theorem State.takePrincipalReady_shell {s t : State} {x : Tag} {e : EndId}
    (h : s.takePrincipalReady x e = some t) : t.shell = s.shell := by
  unfold State.takePrincipalReady at h
  dsimp only at h
  repeat' split at h
  all_goals exact State.answered_shell h rfl

theorem State.takeDecided_shell {s t : State} {x : Tag} {k : WantKind} {d : State × AnswerOutcome}
    (h : s.takeDecided x k d = some t) (hd : d.1.shell = s.shell) : t.shell = s.shell := State.answered_shell h hd

theorem State.dispatch_shell {s t : State} {x : Tag} {b : PetitionBody} (h : s.dispatch x b = some t) :
    t.shell = s.shell := by
  unfold State.dispatch at h
  split at h
  · cases h; rfl
  · cases b <;> dsimp only at h
    case none => cases h; rfl
    case joinSeen => exact State.takeFragment_shell h
    case foreignQuiet => exact State.takeForeignQuiet_shell h
    case principalReady => exact State.takePrincipalReady_shell h
    case brk => exact State.takeBreak_shell h
    case split => exact State.takeSplit_shell h
    case splitCancel => exact State.takeSplitCancel_shell h
    case cabClaim => exact State.takeDecided_shell h (State.decideClaim_shell _ _)
    case cabRelease => exact State.takeDecided_shell h (State.decideRelease_shell _ _)
    case heading => exact State.takeDecided_shell h (State.decideHeading_shell _ _ _)
    case enroll => cases h; rfl

@[simp] theorem State.staleJoint_shell (s : State) (k : WantKind) : (s.staleJoint k).shell = s.shell := rfl

@[simp] theorem State.offer_shell (s : State) (w : Want) : (s.offer w).shell = s.shell := by
  have get : ∀ o : Option State, (∀ t, o = some t → t.shell = s.shell) → (o.getD s).shell = s.shell := by
    intro o ho
    cases o with
    | none => rfl
    | some t => exact ho t rfl
  unfold State.offer
  refine get _ fun t h => ?_
  cases w <;> dsimp only at h
  case joinSeen => exact State.place_shell h
  case foreignQuiet => exact State.takeForeignQuiet_shell h
  case principalReady => exact State.takePrincipalReady_shell h
  case brk => exact State.takeBreak_shell h
  case split =>
    split at h
    · exact State.takeSplit_shell h
    · cases h; rfl
  case splitCancel =>
    split at h
    · exact State.takeSplitCancel_shell h
    · cases h; rfl
  case cabClaim => exact State.takeDecided_shell h (State.decideClaim_shell _ _)
  case cabRelease => exact State.takeDecided_shell h (State.decideRelease_shell _ _)
  case heading => exact State.takeDecided_shell h (State.decideHeading_shell _ _ _)

@[simp] theorem State.offerKey_shell (s : State) (k : WantKind × Option EndId) : (s.offerKey k).shell = s.shell := by
  unfold State.offerKey; split <;> simp

@[simp] theorem State.offerWants_shell (s : State) : s.offerWants.shell = s.shell := by
  have fold : ∀ (ks : List (WantKind × Option EndId)) (x : State), (ks.foldl State.offerKey x).shell = x.shell := by
    intro ks
    induction ks with
    | nil => intro x; rfl
    | cons k ks ih => intro x; rw [List.foldl_cons, ih, State.offerKey_shell]
  exact fold _ _

@[simp] theorem State.queueWant_shell (s : State) (w : Want) : (s.queueWant w).shell = s.shell := by
  unfold State.queueWant; dsimp only; split
  · rw [State.offer_shell]; rfl
  · rfl

@[simp] theorem State.breakWant_shell (s : State) (e : EndId) : (s.breakWant e).shell = s.shell := by
  unfold State.breakWant; split <;> simp

/-! ## Entry into LEAD and end events -/

@[simp] theorem State.enterLead_shell (s : State) (l : Led) (m : Option MarkFields) :
    (s.enterLead l m).shell = s.shell := by
  unfold State.enterLead; simp; rfl

@[simp] theorem State.executeB_shell (s : State) (b : Table) : (s.executeB b).shell = s.shell := by
  simp [State.executeB]

@[simp] theorem State.fastLead_shell (s : State) (c : Capture) : (s.fastLead c).shell = s.shell := by
  simp [State.fastLead]

@[simp] theorem State.onCarrierLoss_shell (s : State) (e : EndId) : (s.onCarrierLoss e).shell = s.shell := by
  unfold State.onCarrierLoss
  repeat' split
  all_goals first | rfl | simp

@[simp] theorem State.onContactOpen_shell (s : State) (e : EndId) : (s.onContactOpen e).shell = s.shell := by
  unfold State.onContactOpen
  repeat' split
  all_goals first | rfl | simp

@[simp] theorem State.carrierEvent_shell (s : State) (e : EndId) (c : CarrierState) :
    (s.carrierEvent e c).shell = s.shell := by
  have q : ∀ x : State, (x.mapEnd e EndUnit.toQuiet).shell = x.shell := fun x => State.mapEnd_shell x e _ fun _ => rfl
  unfold State.carrierEvent
  dsimp only
  split <;> split <;> simp [q]

/-! ## Join detection -/

theorem EndUnit.foreignMark_sense (now : Nat) (m : MarkFields) (u : EndUnit) : (u.foreignMark now m).sense = u.sense := by
  unfold EndUnit.foreignMark
  repeat' split
  all_goals rfl

theorem EndUnit.watchYield_sense (o : Option Tag) (m : MarkFields) (u : EndUnit) : (u.watchYield o m).sense = u.sense := by
  unfold EndUnit.watchYield
  repeat' split
  all_goals rfl

theorem EndUnit.readAdjacent_sense (hop : Nat) (x : AdjacentSource) (sd : Side) (u : EndUnit) :
    (u.readAdjacent hop x sd).sense = u.sense := by
  unfold EndUnit.readAdjacent; split <;> rfl

theorem EndUnit.foreignRoll_sense (r : RollFields) (u : EndUnit) : (u.foreignRoll r).sense = u.sense := by
  unfold EndUnit.foreignRoll; split <;> rfl

@[simp] theorem State.tryReport_shell (s : State) (e : EndId) : (s.tryReport e).shell = s.shell := by
  unfold State.tryReport
  dsimp only
  repeat' split
  all_goals first
    | rfl
    | exact State.mapEnd_shell _ _ _ fun _ => rfl
    | exact (State.queueWant_shell _ _).trans (State.mapEnd_shell _ _ _ fun _ => rfl)

@[simp] theorem State.detectMark_shell (s : State) (e : EndId) (m : MarkFields) (hop : Nat) (sd : Side) :
    (s.detectMark e m hop sd).shell = s.shell := by
  have h1 : (s.mapEnd e fun u => ((u.foreignMark s.now m).watchYield s.leaderTag m).readAdjacent hop .leader sd).shell
      = s.shell := State.mapEnd_shell _ _ _ fun u => by
    rw [EndUnit.readAdjacent_sense, EndUnit.watchYield_sense, EndUnit.foreignMark_sense]
  unfold State.detectMark
  split
  · rfl
  · dsimp only
    split
    · exact (State.queueWant_shell _ _).trans ((State.mapEnd_shell _ e (fun u => { u with watch := .ready }) fun _ => rfl).trans h1)
    · rw [State.tryReport_shell, h1]

@[simp] theorem State.detectRoll_shell (s : State) (e : EndId) (r : RollFields) (hop : Nat) (sd : Side) :
    (s.detectRoll e r hop sd).shell = s.shell := by
  unfold State.detectRoll
  rw [State.tryReport_shell]
  exact State.mapEnd_shell _ _ _ fun u => by rw [EndUnit.readAdjacent_sense, EndUnit.foreignRoll_sense]

@[simp] theorem State.detectOther_shell (s : State) (e : EndId) (x hop : Nat) (sd : Side) :
    (s.detectOther e x hop sd).shell = s.shell := by
  unfold State.detectOther
  rw [State.tryReport_shell]
  exact State.mapEnd_shell _ _ _ fun u => EndUnit.readAdjacent_sense _ _ _ _

@[simp] theorem State.foreignSilence_shell (s : State) (e : EndId) : (s.foreignSilence e).shell = s.shell :=
  State.mapEnd_shell _ _ _ fun _ => rfl

@[simp] theorem State.foreignQuiet_shell (s : State) (e : EndId) : (s.foreignQuiet e).shell = s.shell := by
  unfold State.foreignQuiet
  dsimp only
  rw [State.queueWant_shell]
  exact State.mapEnd_shell _ _ _ fun _ => rfl

/-! ## Work items -/

@[simp] theorem State.dropItem_shell (s : State) (it : WorkItem) : (s.dropItem it).shell = s.shell := by
  unfold State.dropItem
  repeat' split
  all_goals simp

@[simp] theorem State.begin_shell (s : State) (it : WorkItem) : (s.begin it).shell = s.shell := rfl

@[simp] theorem State.decideJoin_shell (s : State) (t : Tag) (e : EndId) (r : ForeignReport) :
    (s.decideJoin t e r).shell = s.shell := by
  unfold State.decideJoin
  dsimp only
  repeat' split
  all_goals simp
  all_goals rfl

@[simp] theorem State.announceKept_shell (s : State) (it : WorkItem) (ens : List Entry) :
    (s.announceKept it ens).shell = s.shell := rfl

@[simp] theorem State.startSplit_shell (s : State) (it : WorkItem) (a b c : Tag) :
    (s.startSplit it a b c).shell = s.shell := by
  unfold State.startSplit; split <;> rfl

@[simp] theorem State.startEnroll_shell (s : State) (it : WorkItem) (t : Tag) (en : Entry) (p : TagPlace) :
    (s.startEnroll it t en p).shell = s.shell := by
  unfold State.startEnroll
  repeat' split
  all_goals simp

@[simp] theorem State.carryOut_shell (s : State) (it : WorkItem) : (s.carryOut it).shell = s.shell := by
  cases it <;> simp [State.carryOut]

@[simp] theorem State.startLater_shell (s : State) (it : WorkItem) : (s.startLater it).shell = s.shell := by
  unfold State.startLater; split
  · rfl
  · simp

@[simp] theorem State.startOverSplit_shell (s : State) (sp : SplitRecord) (it : WorkItem) :
    (s.startOverSplit sp it).shell = s.shell := by
  unfold State.startOverSplit
  dsimp only
  split
  · split
    · rfl
    · rw [State.answer_shell]; rfl
  · simp

@[simp] theorem State.startOverJoin_shell (s : State) (j : JoinProgress) (it : WorkItem) :
    (s.startOverJoin j it).shell = s.shell := by
  unfold State.startOverJoin
  dsimp only
  repeat' split
  all_goals simp

@[simp] theorem State.startItem_shell (s : State) (it : WorkItem) : (s.startItem it).shell = s.shell := by
  unfold State.startItem
  dsimp only
  repeat' split
  all_goals simp
  all_goals rfl

/-! ## Cycle starts of a leader -/

@[simp] theorem State.countSilence_shell (s : State) : s.countSilence.shell = s.shell := rfl

@[simp] theorem State.openCycle_shell (s : State) : s.openCycle.shell = s.shell := by
  unfold State.openCycle; dsimp only; split <;> rfl

@[simp] theorem State.beginDeferred_shell (s : State) : s.beginDeferred.shell = s.shell := by
  unfold State.beginDeferred; dsimp only; split
  · split
    · rw [State.carryOut_shell]; rfl
    · rfl
  · rfl

theorem offered_shell (x : State) (c : Prop) [Decidable c] : (if c then x.offerWants else x).shell = x.shell := by
  split <;> simp

@[simp] theorem State.latchMark_shell (s : State) (sw : Bool) : (s.latchMark sw).shell = s.shell := by
  unfold State.latchMark
  refine (offered_shell _ _).trans ?_
  rw [State.beginDeferred_shell, State.takeChannels_shell, State.compareCab_shell, State.sendOwn_shell,
    State.withShadows_shell]
  rfl

@[simp] theorem State.countDown_shell (s : State) : s.countDown.shell = s.shell := rfl

@[simp] theorem State.generate_shell (s : State) : s.generate.shell = s.shell := by simp [State.generate]

@[simp] theorem State.endAnnounced_shell (s : State) : s.endAnnounced.shell = s.shell := by
  unfold State.endAnnounced
  dsimp only
  repeat' split
  all_goals first
    | rfl
    | (rw [State.answer_shell]; rfl)

@[simp] theorem State.switchTo_shell (s : State) : s.switchTo.shell = s.shell := by
  unfold State.switchTo
  dsimp only
  split <;> simp

@[simp] theorem State.reachArmed_shell (s : State) : s.reachArmed.shell = s.shell := by
  have h : ∀ x : State, x.shell = s.shell → (x.latchMark false).shell = s.shell := fun x hx => by simp [hx]
  unfold State.reachArmed
  refine h _ ?_
  split
  · rw [State.answer_shell]; exact State.openCycle_shell s
  · exact State.openCycle_shell s

@[simp] theorem State.switchSplit_shell (s : State) : s.switchSplit.shell = s.shell := by
  unfold State.switchSplit
  dsimp only
  split
  · split <;> simp
  · simp

@[simp] theorem State.abandonJoin_shell (s : State) : s.abandonJoin.shell = s.shell := by
  unfold State.abandonJoin
  dsimp only
  split <;> simp

@[simp] theorem State.yieldLead_shell (s : State) : s.yieldLead.shell = s.shell := rfl

@[simp] theorem State.regrant_shell (s : State) : s.regrant.shell = s.shell := by
  unfold State.regrant; split <;> simp

@[simp] theorem State.reportLed_shell (s : State) (j : Option (Tag × Tag)) (l : Led) : (s.reportLed j l).shell = s.shell := by
  unfold State.reportLed; split <;> simp

@[simp] theorem State.firstMark_shell (s : State) (l : Led) : (s.firstMark l).shell = s.shell := by
  have h2 : ({ s.openCycle with form := { s.openCycle.form with led := none },
                                timer := { s.openCycle.timer with followed := none } } : State).shell = s.shell :=
    State.openCycle_shell s
  unfold State.firstMark
  dsimp only
  rw [State.latchMark_shell, State.countDown_shell]
  split <;> simp [h2]

@[simp] theorem State.leadAlone_shell (s : State) : s.leadAlone.shell = s.shell := by
  unfold State.leadAlone; simp; rfl

end Sys2Proof.Machine
end

