-- ==== Sys2Proof/Laws/FrameFollower.lean ====
section
/-! SUPPORT. The operations of a follower, of the cells and of the receive paths leave the parts that the car link, the
supply and the store own. -/

namespace Sys2Proof.Machine

open Sys2Proof

/-! ## Applicant -/

@[simp] theorem State.mapApplicant_shell (s : State) (f : ApplicantRecord → ApplicantRecord) :
    (s.mapApplicant f).shell = s.shell := rfl

@[simp] theorem State.survey_shell (s : State) (e : EndId) (p h : Nat) (sd : Side) : (s.survey e p h sd).shell = s.shell := rfl

@[simp] theorem State.surveyLeader_shell (s : State) (e : EndId) (h : Nat) (sd : Side) :
    (s.surveyLeader e h sd).shell = s.shell := by
  unfold State.surveyLeader
  repeat' split
  all_goals simp

@[simp] theorem State.surveyMark_shell (s : State) (e : EndId) (m : MarkFields) (h : Nat) (sd : Side) :
    (s.surveyMark e m h sd).shell = s.shell := by
  unfold State.surveyMark; split <;> simp

@[simp] theorem State.surveyPetition_shell (s : State) (e : EndId) (p : Nat) (t : Tag) (h : Nat) (sd : Side) :
    (s.surveyPetition e p t h sd).shell = s.shell := by
  unfold State.surveyPetition
  repeat' split
  all_goals simp

@[simp] theorem State.surveyChannel_shell (s : State) (e : EndId) (c : ChannelFields) (h : Nat) (sd : Side) :
    (s.surveyChannel e c h sd).shell = s.shell := by
  unfold State.surveyChannel; split <;> simp

@[simp] theorem State.applicantStart_shell (s : State) : s.applicantStart.shell = s.shell := by
  unfold State.applicantStart
  dsimp only
  repeat' split
  all_goals simp

@[simp] theorem State.applyTo_shell (s : State) (l : Tag) (ep : Epoch) : (s.applyTo l ep).shell = s.shell := rfl

@[simp] theorem State.listenTo_shell (s : State) (m : MarkFields) : (s.listenTo m).shell = s.shell := by
  have h : ∀ (c : Prop) [Decidable c] (x y : State), x.shell = s.shell → y.shell = s.shell →
      (if c then x else y).shell = s.shell := by
    intro c _ x y hx hy; split <;> assumption
  unfold State.listenTo
  exact h _ _ _ rfl rfl

@[simp] theorem State.becomeMember_shell (s : State) : s.becomeMember.shell = s.shell := rfl

@[simp] theorem State.admitting_shell (s : State) (t : Table) : (s.admitting t).shell = s.shell := by
  unfold State.admitting; simp

@[simp] theorem State.applicantAdvance_shell (s : State) (l : Tag) (ep : Epoch) :
    (s.applicantAdvance l ep).shell = s.shell := by
  unfold State.applicantAdvance
  repeat' split
  all_goals first | rfl | simp

@[simp] theorem State.applicantInstall_shell (s : State) : s.applicantInstall.shell = s.shell := by
  unfold State.applicantInstall
  repeat' split
  all_goals simp

@[simp] theorem State.applicantAnswer_shell (s : State) (o : AnswerOutcome) (r : Option Reason) :
    (s.applicantAnswer o r).shell = s.shell := by
  unfold State.applicantAnswer; split <;> rfl

/-- A choice between two states with the same shell. -/
theorem shell_ite {c : Prop} [Decidable c] {x y : State} {k : Shell} (hx : x.shell = k) (hy : y.shell = k) :
    (if c then x else y).shell = k := by split <;> assumption

@[simp] theorem State.sendEnroll_shell (s : State) (slot : Nat) : (s.sendEnroll slot).shell = s.shell := by
  have put : ∀ (x : State) (e : EndId) (os : List Octet), x.shell = s.shell →
      (if x.condition e = .isolated then x else x.sendOwnOn e os).shell = s.shell :=
    fun x e os hx => shell_ite hx ((State.sendOwnOn_shell x e os).trans hx)
  unfold State.sendEnroll
  split
  · split
    · refine shell_ite ?_ rfl
      rw [State.mapApplicant_shell]
      exact put _ _ _ (put _ _ _ rfl)
    · rfl
  · rfl

/-! ## Cells -/

@[simp] theorem State.sendRoll_shell (s : State) : s.sendRoll.shell = s.shell := by
  unfold State.sendRoll
  dsimp only
  split
  · rfl
  · rw [State.sendOwn_shell]; rfl

@[simp] theorem State.wantSent_shell (s : State) (w : Want) : (s.wantSent w).shell = s.shell := rfl

theorem State.pickBody_shell (ws : List Want) (s : State) : (State.pickBody ws s).1.shell = s.shell := by
  induction ws generalizing s with
  | nil => rfl
  | cons w ws ih =>
    unfold State.pickBody
    split
    · rfl
    · rw [ih]; rfl

@[simp] theorem State.sendPetition_shell (s : State) : s.sendPetition.shell = s.shell := by
  unfold State.sendPetition
  rw [State.sendOwn_shell, State.pickBody_shell]

@[simp] theorem State.channelCell_shell (s : State) (slot : Nat) : (s.channelCell slot).shell = s.shell := by
  unfold State.channelCell
  repeat' split
  all_goals simp

@[simp] theorem State.cell_shell (s : State) (slot : Nat) : (s.cell slot).shell = s.shell := by
  unfold State.cell
  repeat' split
  all_goals simp

@[simp] theorem State.startCell_shell (s : State) (slot : Nat) : (s.startCell slot).shell = s.shell := by
  unfold State.startCell; rw [State.cell_shell]; rfl

@[simp] theorem State.correct_shell (s : State) : s.correct.shell = s.shell := by
  unfold State.correct; split <;> simp

/-! ## Marks and cycle starts -/

@[simp] theorem State.memberAdvance_shell (s : State) (m : MarkFields) : (s.memberAdvance m).shell = s.shell := by
  unfold State.memberAdvance; split <;> simp

@[simp] theorem State.discardGathered_shell (s : State) : s.discardGathered.shell = s.shell := rfl

theorem EndUnit.segregate_sense (u : EndUnit) : u.segregate.sense = u.sense := rfl

@[simp] theorem State.succeed_shell (s : State) (m : MarkFields) : (s.succeed m).shell = s.shell := by
  unfold State.succeed
  dsimp only
  split
  · split
    · simp; split <;> rfl
    · simp; split <;> rfl
  · simp; split <;> rfl

@[simp] theorem State.segregateJoint_shell (s : State) (k : SeekRecord) : (s.segregateJoint k).shell = s.shell := by
  unfold State.segregateJoint; split
  · exact State.mapEnd_shell _ _ _ EndUnit.segregate_sense
  · rfl

@[simp] theorem State.resumed_shell (s : State) (k : SeekRecord) : (s.resumed k).shell = s.shell := rfl

@[simp] theorem State.seekSucceed_shell (s : State) (k : SeekRecord) : (s.seekSucceed k).shell = s.shell := by
  unfold State.seekSucceed; simp; rfl

@[simp] theorem State.seekTake_shell (s : State) (k : SeekRecord) (t : Table) : (s.seekTake k t).shell = s.shell := by
  unfold State.seekTake; split <;> simp

@[simp] theorem State.seekAdvance_shell (s : State) (k : SeekRecord) (m : MarkFields) :
    (s.seekAdvance k m).shell = s.shell := by
  unfold State.seekAdvance; split
  · dsimp only; split <;> simp
  · rfl

@[simp] theorem State.lateInstall_shell (s : State) : s.lateInstall.shell = s.shell := by
  unfold State.lateInstall
  repeat' split
  all_goals simp

theorem State.compared_shell (s : State) (m : MarkFields) :
    ((({ s with form := s.form.compareMark m } : State).withShadows s.form).lateInstall).shell = s.shell := by
  rw [State.lateInstall_shell]; rfl

@[simp] theorem State.formAtMark_shell (old s : State) (e : EndId) (m : MarkFields) :
    (State.formAtMark old s e m).shell = s.shell := by
  unfold State.formAtMark
  dsimp only
  repeat' split
  all_goals first
    | rfl
    | exact State.compared_shell s m
    | simp
  all_goals first
    | exact State.compared_shell s m
    | rfl

@[simp] theorem State.settleCycle_shell (s : State) : s.settleCycle.shell = s.shell := by simp [State.settleCycle]

@[simp] theorem State.phaseJump_shell (s : State) (m : MarkFields) (h : Nat) : (s.phaseJump m h).shell = s.shell := rfl

@[simp] theorem State.acceptMark_shell (s : State) (e : EndId) (m : MarkFields) (h : Nat) :
    (s.acceptMark e m h).shell = s.shell := by
  have h1 : ∀ (c : Prop) [Decidable c], (if c then s.phaseJump m h else s).shell = s.shell :=
    fun c _ => shell_ite rfl rfl
  unfold State.acceptMark
  rw [State.correct_shell, State.takeChannels_shell]
  have core : ∀ s1 : State, s1.shell = s.shell → ∀ f : State → FormationUnit,
      (State.settleCycle (let s4 := State.formAtMark s { ({ s1 with timer := s1.timer.accept s1.now e m h } :
          State).turnCycle with form := f s1 } e m
        if s4.form.node = .member then { s4 with form := { s4.form with yieldRecord := yieldOf m } } else s4)).shell
        = s.shell := by
    intro s1 hs1 f
    rw [State.settleCycle_shell]
    dsimp only
    refine shell_ite (c := _ = NodeState.member) (Eq.trans ?_ hs1) (Eq.trans ?_ hs1)
    · exact State.formAtMark_shell s _ e m
    · exact State.formAtMark_shell s _ e m
  dsimp only
  refine shell_ite ?_ ?_
  · rw [State.compareCab_shell]; exact core _ (h1 _) fun x => { x.form with fastPath := none }
  · exact core _ (h1 _) fun x => { x.form with fastPath := none }

@[simp] theorem State.earlyMark_shell (s : State) : s.earlyMark.shell = s.shell := by
  unfold State.earlyMark; split <;> rfl

@[simp] theorem State.judgeMark_shell (s : State) (e : EndId) (m : MarkFields) (h : Nat) :
    (s.judgeMark e m h).shell = s.shell := by
  unfold State.judgeMark
  repeat' split
  all_goals simp

@[simp] theorem State.flywheelStart_shell (s : State) : s.flywheelStart.shell = s.shell := by
  unfold State.flywheelStart; simp; rfl

@[simp] theorem State.enterOrphan_shell (s : State) : s.enterOrphan.shell = s.shell := by
  unfold State.enterOrphan
  dsimp only
  split
  · have rests : ∀ x : State, x.shell = s.shell →
        (State.restDetection s.flywheelStart x).rewindWants.shell = s.shell := fun x h => by simpa using h
    split
    · rw [State.fastLead_shell]; exact rests _ (State.flywheelStart_shell s)
    · exact rests _ (State.flywheelStart_shell s)
  · exact State.flywheelStart_shell s

@[simp] theorem State.yieldMember_shell (s : State) : s.yieldMember.shell = s.shell := by
  unfold State.yieldMember
  split
  · dsimp only
    split
    · exact State.flywheelStart_shell s
    · exact State.flywheelStart_shell s
  · rfl

@[simp] theorem State.coast_shell (s : State) : s.coast.shell = s.shell := by
  unfold State.coast; simp; rfl

@[simp] theorem State.takeSuccession_shell (s : State) : s.takeSuccession.shell = s.shell := by
  simp [State.takeSuccession]

@[simp] theorem State.resumeLead_shell (s : State) (k : SeekRecord) : (s.resumeLead k).shell = s.shell := by
  simp [State.resumeLead]

@[simp] theorem State.orphanAgain_shell (s : State) (k : SeekRecord) : (s.orphanAgain k).shell = s.shell := by
  unfold State.orphanAgain; simp; rfl

/-! ## Receive paths -/

@[simp] theorem State.passOn_shell (s : State) (e : EndId) (p : Path) (i k : Nat) (c : List Octet) :
    (s.passOn e p i k c).shell = s.shell := by
  unfold State.passOn
  repeat' split
  all_goals simp

@[simp] theorem State.passCut_shell (s : State) (e : EndId) (os : List Octet) : (s.passCut e os).shell = s.shell := by
  unfold State.passCut; split <;> simp

@[simp] theorem State.hear_shell (s : State) (e : EndId) (n : Nat) : (s.hear e n).shell = s.shell := by
  unfold State.hear; split
  · rfl
  · exact State.mapEnd_shell _ _ _ fun _ => rfl

@[simp] theorem State.passive_shell (k : Nat) (e : EndId) (os : List Octet) (s : State) :
    (State.passive k e os s).shell = s.shell := by
  unfold State.passive
  exact Eq.trans (State.mapEnd_shell _ _ _ (by intro u; rfl)) (State.advance_shell s k)

@[simp] theorem State.handMark_shell (s : State) (e : EndId) (os : List Octet) (p : Path) :
    (s.handMark e os p).shell = s.shell := by
  unfold State.handMark
  dsimp only
  repeat' split
  all_goals simp

@[simp] theorem State.takeRollAnswer_shell (s : State) (a : RollAnswer) : (s.takeRollAnswer a).shell = s.shell := by
  unfold State.takeRollAnswer
  repeat' split
  all_goals simp

@[simp] theorem State.replaceEntries_shell (s : State) (r : RollFields) : (s.replaceEntries r).shell = s.shell := by
  unfold State.replaceEntries
  dsimp only
  repeat' split
  all_goals rfl

@[simp] theorem State.gatherCurrent_shell (s : State) (r : RollFields) : (s.gatherCurrent r).shell = s.shell :=
  shell_ite rfl rfl

@[simp] theorem State.takeRollTable_shell (s : State) (r : RollFields) : (s.takeRollTable r).shell = s.shell := by
  unfold State.takeRollTable
  dsimp only
  repeat' split
  all_goals first | rfl | simp

@[simp] theorem State.takeRoll_shell (s : State) (r : RollFields) : (s.takeRoll r).shell = s.shell := by
  unfold State.takeRoll
  rw [State.takeRollTable_shell]
  split <;> simp

@[simp] theorem State.handRoll_shell (s : State) (e : EndId) (os : List Octet) (p : Path) :
    (s.handRoll e os p).shell = s.shell := by
  unfold State.handRoll
  dsimp only
  repeat' split
  all_goals simp

@[simp] theorem State.hearSender_shell (s : State) (t : Tag) : (s.hearSender t).shell = s.shell := rfl

@[simp] theorem State.takePetition_shell (s : State) (e : EndId) (os : List Octet) : (s.takePetition e os).shell = s.shell := by
  have get : ∀ (x : State) (o : Option State), (∀ t, o = some t → t.shell = x.shell) → (o.getD x).shell = x.shell := by
    intro x o ho
    cases o with
    | none => rfl
    | some t => exact ho t rfl
  unfold State.takePetition
  dsimp only
  repeat' split
  all_goals first
    | rfl
    | exact (get _ _ fun t ht => State.dispatch_shell ht).trans (State.hearSender_shell s _)

@[simp] theorem State.takeEnroll_shell (s : State) (e : EndId) (os : List Octet) : (s.takeEnroll e os).shell = s.shell := by
  have get : ∀ it : WorkItem, ((s.place it).getD s).shell = s.shell := by
    intro it
    cases h : s.place it with
    | none => rfl
    | some t => exact State.place_shell h
  unfold State.takeEnroll
  dsimp only
  repeat' split
  all_goals first
    | rfl
    | exact get _

@[simp] theorem State.handPetition_shell (s : State) (e : EndId) (os : List Octet) (p : Path) :
    (s.handPetition e os p).shell = s.shell := by
  unfold State.handPetition
  repeat' split
  all_goals simp

@[simp] theorem State.handChannel_shell (s : State) (e : EndId) (os : List Octet) (p : Path) :
    (s.handChannel e os p).shell = s.shell := by
  unfold State.handChannel
  dsimp only
  repeat' split
  all_goals simp

@[simp] theorem State.qualified_shell (s : State) (e : EndId) (c : Bool) : (s.qualified e c).shell = s.shell := by
  unfold State.qualified
  dsimp only
  split
  · simp
  · rw [State.onContactOpen_shell]
    refine Eq.trans (State.mapEnd_shell _ _ _ ?_) (shell_ite rfl rfl)
    intro u; rfl

end Sys2Proof.Machine
end

