-- ==== Sys2Proof/Laws/FrameStep.lean ====
section
/-! SUPPORT. How a step ends leaves the parts that the car link, the supply and the store own. -/

namespace Sys2Proof.Machine

open Sys2Proof

/-- An end unit changed, its mode kept. -/
theorem State.mapEnd_spared (s : State) (e : EndId) (f : EndUnit → EndUnit)
    (h : (f (s.endUnit e)).mode = (s.endUnit e).mode) :
    (s.mapEnd e f).spared = s.spared ∧ (s.mapEnd e f).link.tx = s.link.tx := by
  cases e <;> simp_all [State.spared, State.mapEnd, State.setEnd, State.endUnit]

theorem EndUnit.sample_mode (q : Nat) (c : Bool) (u : EndUnit) : (u.sample q c).1.mode = u.mode := by
  unfold EndUnit.sample
  dsimp only
  repeat' split
  all_goals rfl

/-- A sample taken by the contact filter. -/
theorem State.sampled_spared (s : State) (e : EndId) (q : Nat) (c : Bool) (n : Option Nat) :
    let t := s.mapEnd e fun _ => { ((s.endUnit e).sample q c).1 with nextSample := n }
    t.spared = s.spared ∧ t.link.tx = s.link.tx :=
  State.mapEnd_spared s e _ (EndUnit.sample_mode q c _)

theorem EndUnit.keepRecords_sense (now : Nat) (p : TxProgress → Bool) (q : TxRecord → Bool) (u : EndUnit) :
    (u.keepRecords now p q).sense = u.sense := by
  unfold EndUnit.keepRecords
  dsimp only
  repeat' split
  all_goals rfl

theorem EndUnit.cutOff_sense (now : Nat) (c : Condition) (u : EndUnit) : (u.cutOff now c).sense = u.sense :=
  EndUnit.keepRecords_sense _ _ _ u

theorem EndUnit.cutSource_sense (now : Nat) (u : EndUnit) : (u.cutSource now).sense = u.sense :=
  EndUnit.keepRecords_sense _ _ _ u

@[simp] theorem State.recondition_shell (b s : State) : (State.recondition b s).shell = s.shell := by
  have one : ∀ (x : State) (e : EndId), (if b.condition e = x.condition e then x
      else (x.mapEnd e (EndUnit.cutOff x.now (x.condition e))).mapEnd e.other (EndUnit.cutSource x.now)).shell
        = x.shell :=
    fun x e => shell_ite rfl ((State.mapEnd_shell _ _ _ (EndUnit.cutSource_sense _)).trans
      (State.mapEnd_shell _ _ _ (EndUnit.cutOff_sense _ _)))
  unfold State.recondition
  exact (one _ _).trans (one _ _)

@[simp] theorem State.joinNotice_shell (s : State) (n : NoticeBody) : (s.joinNotice n).shell = s.shell :=
  shell_ite rfl rfl

@[simp] theorem State.flushNotices_shell (s : State) : s.flushNotices.shell = s.shell := by
  have fold : ∀ (bs : List NoticeBody) (x : State), (bs.foldl State.joinNotice x).shell = x.shell := by
    intro bs
    induction bs with
    | nil => intro x; rfl
    | cons c bs ih => intro x; rw [List.foldl_cons, ih, State.joinNotice_shell]
  unfold State.flushNotices
  exact (fold _ _).trans rfl

/-- A begun notice moves the transmit path only. -/
theorem State.beginFrame_spared (s : State) (h : s.link.tx = .idle → s.link.reply = none) :
    s.beginFrame.spared = s.spared := by
  unfold State.beginFrame
  split
  · rename_i ht
    rw [h ht]
    dsimp only
    repeat' split
    all_goals rfl
  · rfl

/-- What the end of a step does before a frame begins leaves the shell. -/
theorem flushed_shell (b x : State) : (State.recondition b (State.restDetection b x)).flushNotices.shell = x.shell := by
  simp

/-- The end of a step leaves the spared parts, where no reply waits for an idle path. -/
theorem settle_spared {b x : State} (h : x.link.tx = .idle → x.link.reply = none) : (State.settle b x).spared = x.spared := by
  have h1 := flushed_shell b x
  unfold State.settle
  rw [State.beginFrame_spared]
  · exact congrArg Shell.spared h1
  · intro ht
    have h2 : (State.recondition b (State.restDetection b x)).flushNotices.link.tx = x.link.tx := congrArg Shell.tx h1
    have h3 : (State.recondition b (State.restDetection b x)).flushNotices.link.reply = x.link.reply :=
      congrArg (fun p => p.spared.reply) h1
    rw [h3]
    exact h (h2 ▸ ht)

/-- A step from rest whose work left the spared parts and the transmit path leaves the spared parts. -/
theorem finish_spared {b s x t : State} (hs : AtRest s) (hx : x.spared = s.spared) (htx : x.link.tx = s.link.tx)
    (h : finish b x = .next t) : t.spared = s.spared := by
  unfold finish at h
  injection h with h
  rw [← h, settle_spared, hx]
  intro ht
  exact (congrArg Spared.reply hx).trans (hs.2 (htx ▸ ht)).1

/-- A step from rest whose work left the shell leaves the spared parts. -/
theorem finish_spared_of_shell {b s x t : State} (hs : AtRest s) (hx : x.shell = s.shell) (h : finish b x = .next t) :
    t.spared = s.spared := finish_spared hs (congrArg Shell.spared hx) (congrArg Shell.tx hx) h

/-- However a step ends, the ends sense what they sensed. -/
theorem settle_sense (b x : State) (e : EndId) : ((State.settle b x).endUnit e).sense = (x.endUnit e).sense := by
  have h1 := flushed_shell b x
  unfold State.settle
  rw [State.beginFrame_only_link]
  cases e
  · exact congrArg Shell.sense1 h1
  · exact congrArg Shell.sense2 h1

/-- A step whose work left the shell leaves what the ends sense. -/
theorem finish_sense {b s x t : State} (hx : x.shell = s.shell) (h : finish b x = .next t) (e : EndId) :
    (t.endUnit e).sense = (s.endUnit e).sense := by
  unfold finish at h
  injection h with h
  rw [← h, settle_sense]
  cases e
  · exact congrArg Shell.sense1 hx
  · exact congrArg Shell.sense2 hx

/-- However a step ends, the queue of commands stays. -/
theorem settle_pending (b s : State) : (State.settle b s).pending = s.pending := by
  unfold State.settle
  rw [State.beginFrame_only_link]
  exact congrArg (fun p => p.spared.pending) (flushed_shell b s)

/-- An operation that leaves the shell, ended as a step, leaves the queue of commands. -/
theorem finish_pending {b s x : State} (hx : x.shell = s.shell) : ∃ t, finish b x = .next t ∧ t.pending = s.pending :=
  ⟨_, rfl, (settle_pending b x).trans (congrArg (fun p => p.spared.pending) hx)⟩

/-- A served request whose judgement keeps the queue of commands keeps it, and answers a next state. -/
theorem serve_pending {α : Type} {k : Octet} {parse : List Octet → Option α} {s : State}
    {judge : α → Frame → State → State} (hj : ∀ a f, (judge a f s).pending = s.pending) :
    ∃ t, serve k parse s judge = .next t ∧ t.pending = s.pending := by
  unfold serve
  repeat' split
  · exact ⟨_, rfl, rfl⟩
  · exact ⟨_, rfl, settle_pending _ _⟩
  · exact ⟨_, rfl, (settle_pending _ _).trans (hj _ _)⟩

/-! ## Bounded buffers -/

/-- States with the same shell have bounded buffers together. -/
theorem bounded_of_shell {s x : State} (h : x.shell = s.shell) (hs : BuffersBounded s) : BuffersBounded x := by
  have h1 : x.link.holding = s.link.holding := congrArg (fun p => p.spared.holding) h
  have h2 : x.chan.watch = s.chan.watch := congrArg (fun p => p.spared.watch) h
  have h3 : x.chan.out.map OutChannel.staging = s.chan.out.map OutChannel.staging :=
    congrArg (fun p => p.spared.staging) h
  have h4 : x.chan.out.length = s.chan.out.length := by simpa using congrArg List.length h3
  exact ⟨h1 ▸ hs.1, h2 ▸ hs.2.1, h4 ▸ hs.2.2⟩

/-- A begun frame keeps the buffers bounded. -/
theorem State.beginFrame_bounded {s : State} (hs : BuffersBounded s) : BuffersBounded s.beginFrame := by
  unfold State.beginFrame
  repeat' split
  all_goals first
    | exact hs
    | (refine ⟨?_, hs.2⟩
       have := hs.1
       simp only [List.length_tail]
       omega)

/-- However a step ends, the buffers stay bounded. -/
theorem settle_bounded {b s : State} (hs : BuffersBounded s) : BuffersBounded (State.settle b s) :=
  State.beginFrame_bounded (bounded_of_shell (flushed_shell b s) hs)

/-- A step whose work left the shell keeps the buffers bounded. -/
theorem finish_bounded {b s x t : State} (hx : x.shell = s.shell) (hs : BuffersBounded s) (h : finish b x = .next t) :
    BuffersBounded t := by
  unfold finish at h
  injection h with h
  exact h ▸ settle_bounded (bounded_of_shell hx hs)

end Sys2Proof.Machine
end

