-- ==== Sys2Proof/Laws/Footing.lean ====
section
/-! SUPPORT. The footing of the part - current table, plan in force, image, cycle timer - under the operations that run
between two cycle starts. -/

namespace Sys2Proof.Machine

open Sys2Proof

theorem State.mapEnd_footing (s : State) (e : EndId) (f : EndUnit → EndUnit) : (s.mapEnd e f).footing = s.footing := by
  cases e <;> rfl

@[simp] theorem State.advance_footing (s : State) (k : Nat) : (s.advance k).footing = s.footing := by
  unfold State.footing
  rw [State.advance_form, State.advance_timer, State.advance_planner, State.advance_chan]

@[simp] theorem State.advanceTo_footing (s : State) (k : Nat) : (s.advanceTo k).footing = s.footing := State.advance_footing s _

@[simp] theorem State.notify_footing (s : State) (r : Nat) (b : NoticeBody) : (s.notify r b).footing = s.footing := rfl

@[simp] theorem State.setFlags_footing (s : State) (f : StickyFlags → StickyFlags) : (s.setFlags f).footing = s.footing := rfl

@[simp] theorem State.lineError_footing (s : State) (e : EndId) : (s.lineError e).footing = s.footing := rfl

@[simp] theorem State.alienMark_footing (s : State) : s.alienMark.footing = s.footing := rfl

@[simp] theorem State.sendRelayed_footing (s : State) (e : EndId) (i k : Nat) (os : List Octet) :
    (s.sendRelayed e i k os).footing = s.footing :=
  State.mapEnd_footing _ _ _

@[simp] theorem State.sendOwnOn_footing (s : State) (e : EndId) (os : List Octet) : (s.sendOwnOn e os).footing = s.footing :=
  State.mapEnd_footing _ _ _

@[simp] theorem State.sendOwn_footing (s : State) (make : Side → List Octet) : (s.sendOwn make).footing = s.footing := by
  unfold State.sendOwn
  dsimp only
  split <;> split <;> simp

@[simp] theorem State.sendChannel_footing (s : State) (ch : Nat) : (s.sendChannel ch).footing = s.footing := by
  unfold State.sendChannel; split <;> simp

@[simp] theorem State.dropWant_footing (s : State) (k : WantKind) (e : Option EndId) : (s.dropWant k e).footing = s.footing := rfl

@[simp] theorem State.rewindWants_footing (s : State) : s.rewindWants.footing = s.footing := rfl

@[simp] theorem State.rewindJoinSeen_footing (s : State) (e : Option EndId) : (s.rewindJoinSeen e).footing = s.footing := rfl

@[simp] theorem State.deliverAs_footing (s : State) (w : Option Want) (k : WantKind) (e : Option EndId)
    (out : AnswerOutcome) (r : Option Reason) : (s.deliverAs w k e out r).footing = s.footing := by
  unfold State.deliverAs
  repeat' split
  all_goals first
    | rfl
    | exact State.mapEnd_footing _ _ _

@[simp] theorem State.deliver_footing (s : State) (k : WantKind) (e : Option EndId) (out : AnswerOutcome)
    (r : Option Reason) : (s.deliver k e out r).footing = s.footing := by
  unfold State.deliver; split <;> simp

@[simp] theorem State.answer_footing (s : State) (a : Answer) : (s.answer a).footing = s.footing := by
  unfold State.answer; split
  · simp
  · rfl

theorem answers_footing (as : List Answer) (s : State) : (as.foldl State.answer s).footing = s.footing := by
  induction as generalizing s with
  | nil => rfl
  | cons a as ih => rw [List.foldl_cons, ih, State.answer_footing]

@[simp] theorem State.withShadows_footing (f : FormationUnit) (s : State) : (s.withShadows f).footing = s.footing := rfl

theorem State.place_footing {s t : State} {it : WorkItem} (h : s.place it = some t) : t.footing = s.footing := by
  unfold State.place at h
  obtain ⟨w, -, rfl⟩ := Option.map_eq_some_iff.mp h
  rfl

theorem State.decideClaim_footing (s : State) (t : Tag) : (s.decideClaim t).1.footing = s.footing := by
  unfold State.decideClaim
  repeat' split
  all_goals rfl

theorem State.decideRelease_footing (s : State) (t : Tag) : (s.decideRelease t).1.footing = s.footing := by
  unfold State.decideRelease; split <;> rfl

theorem State.decideHeading_footing (s : State) (t : Tag) (d : Direction) : (s.decideHeading t d).1.footing = s.footing := by
  unfold State.decideHeading; split <;> rfl

@[simp] theorem State.announce_footing (s : State) (ens : List Entry) : (s.announce ens).footing = s.footing := rfl

@[simp] theorem State.steady_footing (s : State) : s.steady.footing = s.footing := rfl

@[simp] theorem State.steadyNext_footing (s : State) : s.steadyNext.footing = s.footing := rfl

@[simp] theorem State.forgetJoins_footing (s : State) : s.forgetJoins.footing = s.footing :=
  (State.mapEnd_footing _ _ _).trans (State.mapEnd_footing _ _ _)

@[simp] theorem State.endSplit_footing (s : State) : s.endSplit.footing = s.footing := rfl

@[simp] theorem State.endJoin_footing (s : State) : s.endJoin.footing = s.footing := rfl

@[simp] theorem State.disarm_footing (s : State) (sp : SplitRecord) (r : Reason) : (s.disarm sp r).footing = s.footing := by
  simp [State.disarm]

theorem State.answered_footing {s t : State} {as : List Answer} {f : State → State} (h : s.answered as f = some t)
    (hf : (f s).footing = s.footing) : t.footing = s.footing := by
  unfold State.answered at h
  split at h
  · cases h; rw [answers_footing, hf]
  · cases h

theorem State.takeSplit_footing {s t : State} {x : Tag} {p : Nat} (h : s.takeSplit x p = some t) : t.footing = s.footing := by
  unfold State.takeSplit at h
  repeat' split at h
  all_goals first
    | exact State.answered_footing h rfl
    | exact State.place_footing h
    | (cases h; rfl)
    | cases h

theorem State.takeSplitCancel_footing {s t : State} {x : Tag} {p : Nat} (h : s.takeSplitCancel x p = some t) :
    t.footing = s.footing := by
  unfold State.takeSplitCancel at h
  split at h
  · cases h
  · dsimp only at h
    repeat' split at h
    all_goals exact State.answered_footing h rfl

theorem State.takeBreak_footing {s t : State} {x : Tag} {e : EndId} {c : Cause} {cap : Capture} {fx : Bool}
    (h : s.takeBreak x e c cap fx = some t) : t.footing = s.footing := by
  unfold State.takeBreak at h
  dsimp only at h
  repeat' split at h
  all_goals first
    | exact State.place_footing h
    | (cases h; rfl)

@[simp] theorem State.placeJoin_footing (s : State) (j : JoinAssembly) : (s.placeJoin j).footing = s.footing := by
  unfold State.placeJoin
  split
  · cases h : s.place (.join j.reporter j.reporterEnd j.report) with
    | none => rfl
    | some t => exact State.place_footing h
  · rfl

theorem State.takeFragment_footing {s t : State} {x : Tag} {e : EndId} {hd : JoinHeader} {ens : List Entry}
    (h : s.takeFragment x e hd ens = some t) : t.footing = s.footing := by
  unfold State.takeFragment at h
  dsimp only at h
  repeat' split at h
  all_goals first
    | exact State.answered_footing h rfl
    | (cases h; rw [State.placeJoin_footing]; rfl)
    | (cases h; rw [State.placeJoin_footing])

theorem State.takeForeignQuiet_footing {s t : State} {x : Tag} {e : EndId} {cab : Nat} {hd : Heading}
    (h : s.takeForeignQuiet x e cab hd = some t) : t.footing = s.footing := by
  unfold State.takeForeignQuiet at h
  dsimp only at h
  repeat' split at h
  all_goals exact State.answered_footing h rfl

theorem State.takePrincipalReady_footing {s t : State} {x : Tag} {e : EndId}
    (h : s.takePrincipalReady x e = some t) : t.footing = s.footing := by
  unfold State.takePrincipalReady at h
  dsimp only at h
  repeat' split at h
  all_goals exact State.answered_footing h rfl

theorem State.takeDecided_footing {s t : State} {x : Tag} {k : WantKind} {d : State × AnswerOutcome}
    (h : s.takeDecided x k d = some t) (hd : d.1.footing = s.footing) : t.footing = s.footing := State.answered_footing h hd

theorem State.dispatch_footing {s t : State} {x : Tag} {b : PetitionBody} (h : s.dispatch x b = some t) :
    t.footing = s.footing := by
  unfold State.dispatch at h
  split at h
  · cases h; rfl
  · cases b <;> dsimp only at h
    case none => cases h; rfl
    case joinSeen => exact State.takeFragment_footing h
    case foreignQuiet => exact State.takeForeignQuiet_footing h
    case principalReady => exact State.takePrincipalReady_footing h
    case brk => exact State.takeBreak_footing h
    case split => exact State.takeSplit_footing h
    case splitCancel => exact State.takeSplitCancel_footing h
    case cabClaim => exact State.takeDecided_footing h (State.decideClaim_footing _ _)
    case cabRelease => exact State.takeDecided_footing h (State.decideRelease_footing _ _)
    case heading => exact State.takeDecided_footing h (State.decideHeading_footing _ _ _)
    case enroll => cases h; rfl

@[simp] theorem State.staleJoint_footing (s : State) (k : WantKind) : (s.staleJoint k).footing = s.footing := rfl

@[simp] theorem State.offer_footing (s : State) (w : Want) : (s.offer w).footing = s.footing := by
  have get : ∀ o : Option State, (∀ t, o = some t → t.footing = s.footing) → (o.getD s).footing = s.footing := by
    intro o ho
    cases o with
    | none => rfl
    | some t => exact ho t rfl
  unfold State.offer
  refine get _ fun t h => ?_
  cases w <;> dsimp only at h
  case joinSeen => exact State.place_footing h
  case foreignQuiet => exact State.takeForeignQuiet_footing h
  case principalReady => exact State.takePrincipalReady_footing h
  case brk => exact State.takeBreak_footing h
  case split =>
    split at h
    · exact State.takeSplit_footing h
    · cases h; rfl
  case splitCancel =>
    split at h
    · exact State.takeSplitCancel_footing h
    · cases h; rfl
  case cabClaim => exact State.takeDecided_footing h (State.decideClaim_footing _ _)
  case cabRelease => exact State.takeDecided_footing h (State.decideRelease_footing _ _)
  case heading => exact State.takeDecided_footing h (State.decideHeading_footing _ _ _)

@[simp] theorem State.offerKey_footing (s : State) (k : WantKind × Option EndId) : (s.offerKey k).footing = s.footing := by
  unfold State.offerKey; split <;> simp

@[simp] theorem State.offerWants_footing (s : State) : s.offerWants.footing = s.footing := by
  have fold : ∀ (ks : List (WantKind × Option EndId)) (x : State), (ks.foldl State.offerKey x).footing = x.footing := by
    intro ks
    induction ks with
    | nil => intro x; rfl
    | cons k ks ih => intro x; rw [List.foldl_cons, ih, State.offerKey_footing]
  exact fold _ _

@[simp] theorem State.queueWant_footing (s : State) (w : Want) : (s.queueWant w).footing = s.footing := by
  unfold State.queueWant; dsimp only; split
  · rw [State.offer_footing]; rfl
  · rfl

@[simp] theorem State.breakWant_footing (s : State) (e : EndId) : (s.breakWant e).footing = s.footing := by
  unfold State.breakWant; split <;> simp

@[simp] theorem State.enterLead_footing (s : State) (l : Led) (m : Option MarkFields) :
    (s.enterLead l m).footing = s.footing := by
  unfold State.enterLead; simp; rfl

@[simp] theorem State.executeB_footing (s : State) (b : Table) : (s.executeB b).footing = s.footing := by
  simp [State.executeB]

@[simp] theorem State.fastLead_footing (s : State) (c : Capture) : (s.fastLead c).footing = s.footing := by
  simp [State.fastLead]

@[simp] theorem State.onCarrierLoss_footing (s : State) (e : EndId) : (s.onCarrierLoss e).footing = s.footing := by
  unfold State.onCarrierLoss
  repeat' split
  all_goals first | rfl | simp

@[simp] theorem State.onContactOpen_footing (s : State) (e : EndId) : (s.onContactOpen e).footing = s.footing := by
  unfold State.onContactOpen
  repeat' split
  all_goals first | rfl | simp

@[simp] theorem State.carrierEvent_footing (s : State) (e : EndId) (c : CarrierState) :
    (s.carrierEvent e c).footing = s.footing := by
  have q : ∀ x : State, (x.mapEnd e EndUnit.toQuiet).footing = x.footing := fun x => State.mapEnd_footing x e _
  unfold State.carrierEvent
  dsimp only
  split <;> split <;> simp [q]

@[simp] theorem State.tryReport_footing (s : State) (e : EndId) : (s.tryReport e).footing = s.footing := by
  unfold State.tryReport
  dsimp only
  repeat' split
  all_goals first
    | rfl
    | exact State.mapEnd_footing _ _ _
    | exact (State.queueWant_footing _ _).trans (State.mapEnd_footing _ _ _)

@[simp] theorem State.detectMark_footing (s : State) (e : EndId) (m : MarkFields) (hop : Nat) (sd : Side) :
    (s.detectMark e m hop sd).footing = s.footing := by
  have h1 : (s.mapEnd e fun u => ((u.foreignMark s.now m).watchYield s.leaderTag m).readAdjacent hop .leader sd).footing
      = s.footing := State.mapEnd_footing _ _ _
  unfold State.detectMark
  split
  · rfl
  · dsimp only
    split
    · exact (State.queueWant_footing _ _).trans ((State.mapEnd_footing _ e (fun u => { u with watch := .ready })).trans h1)
    · rw [State.tryReport_footing, h1]

@[simp] theorem State.detectRoll_footing (s : State) (e : EndId) (r : RollFields) (hop : Nat) (sd : Side) :
    (s.detectRoll e r hop sd).footing = s.footing := by
  unfold State.detectRoll
  rw [State.tryReport_footing]
  exact State.mapEnd_footing _ _ _

@[simp] theorem State.detectOther_footing (s : State) (e : EndId) (x hop : Nat) (sd : Side) :
    (s.detectOther e x hop sd).footing = s.footing := by
  unfold State.detectOther
  rw [State.tryReport_footing]
  exact State.mapEnd_footing _ _ _

@[simp] theorem State.foreignSilence_footing (s : State) (e : EndId) : (s.foreignSilence e).footing = s.footing :=
  State.mapEnd_footing _ _ _

@[simp] theorem State.foreignQuiet_footing (s : State) (e : EndId) : (s.foreignQuiet e).footing = s.footing := by
  unfold State.foreignQuiet
  dsimp only
  rw [State.queueWant_footing]
  exact State.mapEnd_footing _ _ _

@[simp] theorem State.dropItem_footing (s : State) (it : WorkItem) : (s.dropItem it).footing = s.footing := by
  unfold State.dropItem
  repeat' split
  all_goals simp

@[simp] theorem State.begin_footing (s : State) (it : WorkItem) : (s.begin it).footing = s.footing := rfl

@[simp] theorem State.decideJoin_footing (s : State) (t : Tag) (e : EndId) (r : ForeignReport) :
    (s.decideJoin t e r).footing = s.footing := by
  unfold State.decideJoin
  dsimp only
  repeat' split
  all_goals simp
  all_goals rfl

@[simp] theorem State.announceKept_footing (s : State) (it : WorkItem) (ens : List Entry) :
    (s.announceKept it ens).footing = s.footing := rfl

@[simp] theorem State.startSplit_footing (s : State) (it : WorkItem) (a b c : Tag) :
    (s.startSplit it a b c).footing = s.footing := by
  unfold State.startSplit; split <;> rfl

@[simp] theorem State.startEnroll_footing (s : State) (it : WorkItem) (t : Tag) (en : Entry) (p : TagPlace) :
    (s.startEnroll it t en p).footing = s.footing := by
  unfold State.startEnroll
  repeat' split
  all_goals simp

@[simp] theorem State.carryOut_footing (s : State) (it : WorkItem) : (s.carryOut it).footing = s.footing := by
  cases it <;> simp [State.carryOut]

@[simp] theorem State.startLater_footing (s : State) (it : WorkItem) : (s.startLater it).footing = s.footing := by
  unfold State.startLater; split
  · rfl
  · simp

@[simp] theorem State.startOverSplit_footing (s : State) (sp : SplitRecord) (it : WorkItem) :
    (s.startOverSplit sp it).footing = s.footing := by
  unfold State.startOverSplit
  dsimp only
  split
  · split
    · rfl
    · rw [State.answer_footing]; rfl
  · simp

@[simp] theorem State.startOverJoin_footing (s : State) (j : JoinProgress) (it : WorkItem) :
    (s.startOverJoin j it).footing = s.footing := by
  unfold State.startOverJoin
  dsimp only
  repeat' split
  all_goals simp

@[simp] theorem State.startItem_footing (s : State) (it : WorkItem) : (s.startItem it).footing = s.footing := by
  unfold State.startItem
  dsimp only
  repeat' split
  all_goals simp
  all_goals rfl

@[simp] theorem State.mapApplicant_footing (s : State) (f : ApplicantRecord → ApplicantRecord) :
    (s.mapApplicant f).footing = s.footing := rfl

@[simp] theorem State.survey_footing (s : State) (e : EndId) (p h : Nat) (sd : Side) : (s.survey e p h sd).footing = s.footing := rfl

@[simp] theorem State.surveyPetition_footing (s : State) (e : EndId) (p : Nat) (t : Tag) (h : Nat) (sd : Side) :
    (s.surveyPetition e p t h sd).footing = s.footing := by
  unfold State.surveyPetition
  repeat' split
  all_goals simp

/-- A choice between two states with the same footing. -/
theorem footing_ite {c : Prop} [Decidable c] {x y : State} {k : Footing} (hx : x.footing = k) (hy : y.footing = k) :
    (if c then x else y).footing = k := by split <;> assumption

@[simp] theorem State.sendEnroll_footing (s : State) (slot : Nat) : (s.sendEnroll slot).footing = s.footing := by
  have put : ∀ (x : State) (e : EndId) (os : List Octet), x.footing = s.footing →
      (if x.condition e = .isolated then x else x.sendOwnOn e os).footing = s.footing :=
    fun x e os hx => footing_ite hx ((State.sendOwnOn_footing x e os).trans hx)
  unfold State.sendEnroll
  split
  · split
    · refine footing_ite ?_ rfl
      rw [State.mapApplicant_footing]
      exact put _ _ _ (put _ _ _ rfl)
    · rfl
  · rfl

@[simp] theorem State.sendRoll_footing (s : State) : s.sendRoll.footing = s.footing := by
  unfold State.sendRoll
  dsimp only
  split
  · rfl
  · rw [State.sendOwn_footing]; rfl

@[simp] theorem State.wantSent_footing (s : State) (w : Want) : (s.wantSent w).footing = s.footing := rfl

theorem State.pickBody_footing (ws : List Want) (s : State) : (State.pickBody ws s).1.footing = s.footing := by
  induction ws generalizing s with
  | nil => rfl
  | cons w ws ih =>
    unfold State.pickBody
    split
    · rfl
    · rw [ih]; rfl

@[simp] theorem State.sendPetition_footing (s : State) : s.sendPetition.footing = s.footing := by
  unfold State.sendPetition
  rw [State.sendOwn_footing, State.pickBody_footing]

@[simp] theorem State.channelCell_footing (s : State) (slot : Nat) : (s.channelCell slot).footing = s.footing := by
  unfold State.channelCell
  repeat' split
  all_goals simp

@[simp] theorem State.cell_footing (s : State) (slot : Nat) : (s.cell slot).footing = s.footing := by
  unfold State.cell
  repeat' split
  all_goals simp

@[simp] theorem State.startCell_footing (s : State) (slot : Nat) : (s.startCell slot).footing = s.footing := by
  unfold State.startCell; rw [State.cell_footing]; rfl

@[simp] theorem State.passOn_footing (s : State) (e : EndId) (p : Path) (i k : Nat) (c : List Octet) :
    (s.passOn e p i k c).footing = s.footing := by
  unfold State.passOn
  repeat' split
  all_goals simp

@[simp] theorem State.passCut_footing (s : State) (e : EndId) (os : List Octet) : (s.passCut e os).footing = s.footing := by
  unfold State.passCut; split <;> simp

@[simp] theorem State.hear_footing (s : State) (e : EndId) (n : Nat) : (s.hear e n).footing = s.footing := by
  unfold State.hear; split
  · rfl
  · exact State.mapEnd_footing _ _ _

@[simp] theorem State.passive_footing (k : Nat) (e : EndId) (os : List Octet) (s : State) :
    (State.passive k e os s).footing = s.footing := by
  unfold State.passive
  exact Eq.trans (State.mapEnd_footing _ _ _) (State.advance_footing s k)

@[simp] theorem State.hearSender_footing (s : State) (t : Tag) : (s.hearSender t).footing = s.footing := rfl

@[simp] theorem State.takePetition_footing (s : State) (e : EndId) (os : List Octet) : (s.takePetition e os).footing = s.footing := by
  have get : ∀ (x : State) (o : Option State), (∀ t, o = some t → t.footing = x.footing) → (o.getD x).footing = x.footing := by
    intro x o ho
    cases o with
    | none => rfl
    | some t => exact ho t rfl
  unfold State.takePetition
  dsimp only
  repeat' split
  all_goals first
    | rfl
    | exact (get _ _ fun t ht => State.dispatch_footing ht).trans (State.hearSender_footing s _)

@[simp] theorem State.takeEnroll_footing (s : State) (e : EndId) (os : List Octet) : (s.takeEnroll e os).footing = s.footing := by
  have get : ∀ it : WorkItem, ((s.place it).getD s).footing = s.footing := by
    intro it
    cases h : s.place it with
    | none => rfl
    | some t => exact State.place_footing h
  unfold State.takeEnroll
  dsimp only
  repeat' split
  all_goals first
    | rfl
    | exact get _

@[simp] theorem State.handPetition_footing (s : State) (e : EndId) (os : List Octet) (p : Path) :
    (s.handPetition e os p).footing = s.footing := by
  unfold State.handPetition
  repeat' split
  all_goals simp

@[simp] theorem State.qualified_footing (s : State) (e : EndId) (c : Bool) : (s.qualified e c).footing = s.footing := by
  unfold State.qualified
  dsimp only
  split
  · simp
  · rw [State.onContactOpen_footing]
    refine Eq.trans (State.mapEnd_footing _ _ _) (footing_ite rfl rfl)

@[simp] theorem State.recondition_footing (b s : State) : (State.recondition b s).footing = s.footing := by
  have one : ∀ (x : State) (e : EndId), (if b.condition e = x.condition e then x
      else (x.mapEnd e (EndUnit.cutOff x.now (x.condition e))).mapEnd e.other (EndUnit.cutSource x.now)).footing
        = x.footing :=
    fun x e => footing_ite rfl ((State.mapEnd_footing _ _ _).trans (State.mapEnd_footing _ _ _))
  unfold State.recondition
  exact (one _ _).trans (one _ _)

@[simp] theorem State.restDetection_footing (b s : State) : (State.restDetection b s).footing = s.footing := by
  unfold State.restDetection
  exact (State.mapEnd_footing _ _ _).trans (State.mapEnd_footing _ _ _)

@[simp] theorem State.joinNotice_footing (s : State) (n : NoticeBody) : (s.joinNotice n).footing = s.footing :=
  footing_ite rfl rfl

@[simp] theorem State.flushNotices_footing (s : State) : s.flushNotices.footing = s.footing := by
  have fold : ∀ (bs : List NoticeBody) (x : State), (bs.foldl State.joinNotice x).footing = x.footing := by
    intro bs
    induction bs with
    | nil => intro x; rfl
    | cons c bs ih => intro x; rw [List.foldl_cons, ih, State.joinNotice_footing]
  unfold State.flushNotices
  exact (fold _ _).trans rfl

/-- A begun frame moves the car link only. -/
@[simp] theorem State.beginFrame_footing (s : State) : s.beginFrame.footing = s.footing := by
  rw [State.beginFrame_only_link]; rfl

/-- However a step ends, the footing stays. -/
@[simp] theorem settle_footing (b s : State) : (State.settle b s).footing = s.footing := by simp [State.settle]

/-- A step whose work left the footing leaves it. -/
theorem finish_footing {b s x t : State} (hx : x.footing = s.footing) (h : finish b x = .next t) :
    t.footing = s.footing := by
  unfold finish at h
  injection h with h
  rw [← h, settle_footing, hx]

/-- A served request whose judgement leaves the footing leaves it. -/
theorem serve_footing {α : Type} {k : Octet} {parse : List Octet → Option α} {s t : State}
    {judge : α → Frame → State → State} (hj : ∀ a f, (judge a f s).footing = s.footing)
    (h : serve k parse s judge = .next t) : t.footing = s.footing := by
  unfold serve at h
  repeat' split at h
  · injection h with h; rw [h]
  · exact finish_footing (show (s.reply _ _ _).footing = s.footing from rfl) h
  · exact finish_footing (hj _ _) h

end Sys2Proof.Machine
end

