-- ==== Sys2Proof/Laws/Requests.lean ====
section
/-! SUPPORT. Serving a request: what `serve` does with a frame that is ready, and how a step that replies ends. -/

namespace Sys2Proof.Machine

open Sys2Proof

/-- A frame that is ready is the one its request serves. -/
theorem Ready.frameFor {s : State} {f : Frame} {k : Octet} (h : Ready s f k) : s.frameFor (· == k) = some f := by
  obtain ⟨hp, -, hh, hk, hr, hs⟩ := h
  unfold State.frameFor
  cases hl : s.link.holding with
  | nil => rw [hl] at hh; cases hh
  | cons x xs =>
    rw [hl] at hh
    obtain rfl : x = f := by simpa using hh
    simp [hp, hr, hs, hk]

/-- A request whose body is laid out rightly is judged. -/
theorem serve_ready {α : Type} {s : State} {f : Frame} {k : Octet} {parse : List Octet → Option α} {a : α}
    (judge : α → Frame → State → State) (h : Ready s f k) (ha : parse f.body = some a) :
    serve k parse s judge = finish s (judge a f s) := by
  simp [serve, h.frameFor, ha]

/-- A request whose body is not laid out rightly is replied MALFORMED. -/
theorem serve_malformed {α : Type} {s : State} {f : Frame} {k : Octet} {parse : List Octet → Option α}
    (judge : α → Frame → State → State) (h : Ready s f k) (ha : parse f.body = none) :
    serve k parse s judge = finish s (s.reply f .malformed .empty) := by
  simp [serve, h.frameFor, ha]

/-- On an idle path a reply just made begins, else it waits. -/
theorem beginFrame_reply (s : State) (f : Frame) (o : Outcome) (b : ReplyBody) (h : s.link.reply = none) :
    (s.reply f o b).beginFrame = s.replied f o b := by
  unfold State.replied State.beginFrame State.reply
  by_cases ht : s.link.tx = .idle
  · simp [ht, h]
  · simp only [ht, if_false]

/-- A step that replies and changes nothing the ends' conditions or join detection depend on. -/
theorem finish_reply (b s : State) (f : Frame) (o : Outcome) (body : ReplyBody)
    (hc : ∀ e, b.condition e = s.condition e) (hd : ∀ e, b.detectable e = true → s.detectable e = true)
    (hu : ∀ e, b.outermost e = true → s.outermost e = true) (ho : s.outbox = []) (hr : s.link.reply = none) :
    finish b (s.reply f o body) = .next (s.replied f o body) := by
  have e1 : ∀ e, (s.reply f o body).condition e = s.condition e := by intro e; cases e <;> rfl
  have e2 : ∀ e, (s.reply f o body).detectable e = s.detectable e := by intro e; cases e <;> rfl
  unfold finish
  rw [settle_quiet b (s.reply f o body) (fun e => by rw [e1]; exact hc e) (fun e he => by rw [e2]; exact hd e he)
      (fun e he => hu e he) ho,
    beginFrame_reply s f o body hr]

/-- A step that replies and leaves ends and formation unit alone. -/
theorem finish_reply_same (b s : State) (f : Frame) (o : Outcome) (body : ReplyBody) (h1 : s.form = b.form)
    (h2 : s.e1 = b.e1) (h3 : s.e2 = b.e2) (h4 : s.powered = b.powered) (ho : s.outbox = [])
    (hr : s.link.reply = none) : finish b (s.reply f o body) = .next (s.replied f o body) := by
  have hu : ∀ e, s.endUnit e = b.endUnit e := by intro e; cases e <;> simp [State.endUnit, h2, h3]
  refine finish_reply b s f o body (fun e => ?_) (fun e he => ?_) (fun e he => ?_) ho hr
  · simp [State.condition, h1, hu, h4]
  · simpa [State.detectable, State.outermost, State.outer, h1, hu] using he
  · simpa [State.outermost, State.outer, h1] using he

/-- A request replied with nothing else done. -/
theorem finish_reply_self {s : State} {f : Frame} {k : Octet} (h : Ready s f k) (o : Outcome) (body : ReplyBody) :
    finish s (s.reply f o body) = .next (s.replied f o body) :=
  finish_reply_same s s f o body rfl rfl rfl rfl h.2.1 h.2.2.2.2.1

/-- A step that changed the channel unit and the store only, and replies. -/
theorem finish_reply_chan_store {s : State} {f : Frame} {k : Octet} (h : Ready s f k) (c : ChannelUnit) (st : Store)
    (o : Outcome) (body : ReplyBody) :
    finish s (({ s with chan := c, store := st } : State).reply f o body)
      = .next (({ s with chan := c, store := st } : State).replied f o body) :=
  finish_reply_same s _ f o body rfl rfl rfl rfl h.2.1 h.2.2.2.2.1

end Sys2Proof.Machine
end

