-- ==== Sys2Proof/WellFormed.lean ====
section
/-! DEFINITION. When a command is well-formed: its octets are what its row names. A command that is not
well-formed names an event that did not take place, and changes nothing (DESIGN CHOICE, log 1). -/

namespace Sys2Proof

open Sys2Proof.Machine

/-- Whether the octets of a command are what its row says arrived (R12, R174, R187). -/
def wellFormed : Instr → Bool
  | .markReceived _ _ os => goodRecordOf kindMark os
  | .rollRecordReceived _ _ os => goodRecordOf kindRoll os
  | .petitionRecordReceived _ _ os => goodRecordOf kindPetition os
  | .channelRecordReceived _ _ os => goodRecordOf kindChannel os
  | .badRecordReceived _ _ os => badRecord os
  | .frameReceived _ os => !os.isEmpty
  | .frameDropped _ os => !os.isEmpty
  | .powerOn | .powerLoss _ | .frameTimeout _ _ | .transmitFrameEnd _ | .unknown | .identify
  | .status | .start | .stop | .restart | .restartTakesEffect _ | .setEndMode | .publish
  | .readImage | .readTable | .watch | .unwatch | .split | .splitCancel | .cabClaim | .cabRelease
  | .heading | .settingsRead | .settingsWrite | .settingsProtect | .storeOperationEnd _
  | .listenTimeout | .contactSample _ _ | .carrierChange _ _ | .foreignMarkTimeout _
  | .foreignQuietTimeout _ | .waitingRecordSent _ | .generatedCycleStart | .switchMark
  | .armedReached | .splitSwitch | .yieldEnd | .armedTimeout | .principalJoinDeadline
  | .absorbedJoinDeadline | .silenceLimit | .workItemStart | .cellStart | .flywheelStart
  | .orphanEntry | .yieldSeekEntry | .coastingStart | .succession | .firstGeneratedMark
  | .seekDeadlineResume | .seekDeadlineOrphan | .enrollAttemptAdvance | .windowOpens => true

end Sys2Proof
end

