-- ==== Sys2Proof/Tests/Slice0.lean ====
section
/-! SUPPORT. Tests against the spec's own tables and examples, ill-formed commands, and a witness for the hypotheses of
each statement. -/

namespace Sys2Proof.Tests

-- One theorem at a time: ninety threads that wait for the kernel at once do not fit the check's memory.
set_option Elab.async false

open Sys2Proof Sys2Proof.Machine

/-! ## Commands that are not well-formed -/

theorem test_mark_cut_short_refused : wellFormed (.markReceived 0 .e1 [161, 40, 0]) = false := by decide +kernel
theorem test_roll_of_wrong_kind_refused : wellFormed (.rollRecordReceived 0 .e1 [161, 48]) = false := by decide +kernel
theorem test_petition_of_wrong_length_refused :
    wellFormed (.petitionRecordReceived 0 .e1 (sealRecord [163, 18, 0, 1, 0, 0, 0, 0, 0, 5, 0, 0, 0, 0])) = false := by
  decide +kernel
theorem test_channel_with_bad_check_refused :
    wellFormed (.channelRecordReceived 0 .e1 (sealInverted ([164, 43] ++ List.replicate 37 0))) = false := by
  decide +kernel
theorem test_idle_fill_is_no_bad_record : wellFormed (.badRecordReceived 0 .e1 [0, 0]) = false := by decide +kernel
theorem test_good_record_is_no_bad_record :
    wellFormed (.badRecordReceived 0 .e1 ([0] ++ sealRecord [163, 15, 0, 1, 0, 0, 0, 0, 0, 5, 0] ++ [0])) = false := by
  decide +kernel
theorem test_frame_without_octets_refused : wellFormed (.frameReceived 0 []) = false := by decide
theorem test_drop_without_octets_refused : wellFormed (.frameDropped 0 []) = false := by decide
theorem test_no_word_spells_a_command : decodeTableWord 32 0x00000073 = none := rfl

/-! ## The spec's tables and examples -/

/-- R168's table of written and stored values. -/
theorem test_clamps_of_R168 :
    clampPeriod 4870 = 4800 ∧ clampPeriod 1950 = 2000 ∧ clampPeriod 25050 = 20000 ∧ clampPeriod 6600 = 6600
      ∧ clampInterval 1999 = 1000 ∧ clampInterval 100 = 250 ∧ clampInterval 5000 = 4000
      ∧ clamp 2 50 60 = 50 ∧ clamp 2 16 1 = 2 ∧ clamp 10 250 255 = 250 := by decide

/-- Record lengths of 11, The mark and The channel record. -/
theorem test_record_lengths :
    lengthAllowed 161 40 = true ∧ lengthAllowed 164 43 = true ∧ lengthAllowed 162 96 = true
      ∧ lengthAllowed 163 99 = true ∧ lengthAllowed 162 49 = false ∧ lengthAllowed 160 40 = false := by decide

/-- R98's table of headings. -/
theorem test_headings_of_R98 :
    Direction.towardE1.toTrain .facing = .towardRef ∧ Direction.towardE2.toTrain .facing = .awayFromRef
      ∧ Direction.towardE1.toTrain .reversed = .awayFromRef ∧ Direction.towardE2.toTrain .reversed = .towardRef := by
  decide

/-- The petition cells of R26: position 1 slot 1 index 0, position 5 slot 1 index 1, position 16 slot 4 index 3. -/
theorem test_petition_cells : petitionCell 1 = (1, 0) ∧ petitionCell 5 = (1, 1) ∧ petitionCell 16 = (4, 3) := by decide

/-- A sided payload has its halves exchanged, octets 0 to 15 and 16 to 31 (R150, 11). -/
theorem test_swap_halves : swapHalves (List.replicate 16 1 ++ List.replicate 16 2)
    = List.replicate 16 2 ++ List.replicate 16 1 := by decide

/-- A sample that differs from the previous one restarts the count at 1 (R1). -/
theorem test_bounce_restarts_count :
    (({ EndUnit.initial with contact := .opened, filterCount := 3, lastSample := some false } : EndUnit).sample 8 true).1.filterCount
      = 1 := by decide

/-- The third JOIN_ABANDONED with reason DEADLINE segregates the end (R21). -/
theorem test_third_deadline_segregates :
    (({ EndUnit.initial with phase := .reported, attempts := 2 } : EndUnit).takeAnswer .joinAbandoned
      (some .deadline)).segregated = true := by decide

/-- After a bad record the receiver is idle at the octet after its kind: a kind octet inside it opens the next (R187). -/
theorem test_rescan_behind_bad_kind :
    badRecords 0 0 [0, 9, 161, 40, 0] = [(1, [9, 161]), (2, [161, 40, 0]), (3, [40, 0])] := by decide +kernel

/-- A copy cut off carries the inverse of the check over the octets before it, also when the record ended inside its check
(R187). -/
theorem test_cut_copy_check :
    cutCopy [163, 15, 0, 1, 0, 0, 0, 0, 0, 5, 0, 1, 2] = sealInverted [163, 15, 1, 1, 0, 0, 0, 0, 0, 5, 0] := by
  decide +kernel

/-- 200 silent ticks make the carrier ABSENT, 199 do not (R3). -/
theorem test_carrier_counts :
    ((EndUnit.initial.carrierUp.hears 40).countTicks 239).carrierDue = false
      ∧ ((EndUnit.initial.carrierUp.hears 40).countTicks 240).carrierDue = true
      ∧ (EndUnit.initial.countTicks 99).carrierDue = false ∧ (EndUnit.initial.countTicks 100).carrierDue = true := by
  decide +kernel

/-- The frame of a reply: start octet, length, kind 129, tag, outcome and contents, check (R177, R188). -/
theorem test_reply_frame :
    ({ kind := 130, tag := 0x0102, outcome := .busy, body := .empty } : Reply).octets
      = [126, 1, 130, 1, 2, 3] ++ natOctets 2 (crc16 [1, 130, 1, 2, 3]).toNat := by decide +kernel

/-- The frame of a notice: tag octets 0 and the number, the train time first (R184). -/
theorem test_notice_frame :
    (({ number := 7, time := some { round := 1, index := 2, tick := 3 }, body := .petitionAnswer .heading .done none } :
      Notice).octets.take 14) = [126, 9, 72, 0, 7, 1, 0, 1, 2, 0, 3, 9, 7, 0] := by decide +kernel

/-- A length above 200 drops a frame at once, and hunting goes on behind its start octet (R174). -/
theorem test_long_frame_dropped : (scan false 3 [126, 201, 126]).drops = 1 ∧ (scan false 3 [126, 201, 126]).rest = [126] := by
  decide

/-! ## States to stand on -/

def ident : Identity := { tag := 5, unit := 9, fixed1 := false, fixed2 := true, cab := true }
def serv : Service := { Service.defaults with channels := [{ cls := .safety, requested := .every, sided := true }] }
def snap : Snapshot := { identity := ident, service := serv }
def chan1 : ChannelDesc := { cls := .safety, requested := .every, granted := .every, sided := true }
def entry (p : Nat) (t : Tag) (rk fk : CouplingKind) : Entry :=
  { position := p, tag := t, unit := 9, orientation := .facing, refKind := rk, farKind := fk, cab := true,
    channels := [chan1] }
/-- Two cars; the part (tag 5) at position 1. -/
def tab1 : Table := { epoch := 1, entries := [entry 1 5 .outer .service, entry 2 7 .service .outer] }
/-- Three cars; the part (tag 5) at position 2, the leader (tag 7) at position 1. -/
def tab2 : Table :=
  { epoch := 1, entries := [entry 1 7 .outer .service, entry 2 5 .service .service, entry 3 8 .service .outer] }

/-- DETACHED, configured. -/
def fitted : State :=
  { State.reset with store := { State.reset.store with
      identity := { contents := ident, protect := false, intact := true, good := true }
      service := { contents := serv, protect := false, intact := true, good := true }
      snapshot := some snap } }

def listening : State := { fitted with form := { fitted.form with node := .listen, listenCandidate := some (7, 2) } }

def markOf (leader : Tag) (n : Nat) : MarkFields :=
  { leader := leader, epoch := 1, n := n, index := 0, round := 3, period := 10000, procedure := .steady, countdown := 0,
    cab := 0, heading := .none, other := none }

/-- LEAD of two cars, in STEADY, at the start of a cycle. -/
def leader : State :=
  { fitted with
    form := { fitted.form with node := .lead, current := some tab1, procedure := some .steady,
                               steering := steeringOf tab1 5, rollPointer := some { table := 0, index := 1 } }
    planner := { fitted.planner with inForce := some (makePlan tab1 10000) }
    timer := { fitted.timer with lock := .generating, period := some 10000, index := 0, round := 3, latched := some (markOf 5 2),
                                 reference := some 0 }
    pet := { fitted.pet with silence := [{ tag := 7, count := 4, heard := false, owed := true }] }
    chan := { fitted.chan with image := some (rekeyImage [] tab1.entries) } }

/-- MEMBER of three cars, SYNCED, in a cycle of its leader's. -/
def member : State :=
  { fitted with
    now := 9000
    form := { fitted.form with node := .member, current := some tab2, steering := steeringOf tab2 5 }
    planner := { fitted.planner with inForce := some (makePlan tab2 10000) }
    timer := { fitted.timer with lock := .locked, period := some 10000, index := 0, round := 3, latched := some (markOf 7 3),
                                 followed := some (7, 1), reference := some 0, refHop := 0, acceptEnd := some .e1 }
    chan := { fitted.chan with image := some (rekeyImage [] tab2.entries) } }

def orphan : State :=
  { member with form := { member.form with node := .orphan }, timer := { member.timer with lock := .acquiring } }

/-- A state with one frame held. -/
def held (s : State) (k : Octet) (body : List Octet) : State :=
  { s with link := { s.link with holding := [{ kind := k, tag := 1, body := body }] } }
def fr (k : Octet) (body : List Octet) : Frame := { kind := k, tag := 1, body := body }

def sp1 : SplitRecord :=
  { low := 5, high := 7, requester := 7, designatedB := 7, stage := .armed, armedTime := 0, execution := 0 }
def report1 : ForeignReport :=
  { header := { leader := 30, epoch := 0, size := 1, period := 10000, adjPosition := 1, adjSide := .ref, fixed := false }
    entries := [entry 1 30 .outer .outer] }
def join1 (r : JoinRole) (p : JoinPhase) (w : Nat) : JoinProgress :=
  { role := r, reporter := 7, reporterEnd := .e2, report := report1, phase := p, wait := w, foreignHolder := none }

/-! ## Witnesses: cars on the link -/

theorem test_witness_rest : AtRest leader ∧ BuffersBounded leader := by decide +kernel
theorem test_witness_plan : grantedDemand tab2.entries ≤ roundCapacity 10000 tab2.size ∧ tab2.entries ≠ [] := by
  decide +kernel
theorem test_witness_rates : safetyDemand tab2.entries ≤ roundCapacity 2000 tab2.entries.length := by decide +kernel
theorem test_witness_mark : (markOf 7 3).ok = true := by decide
theorem test_witness_entry : (entry 2 5 .service .fixed).position ≤ 16 ∧ validTag 5 = true ∧ chan1.ratesOk = true
    ∧ chan1.requested ≠ .suspended := by decide +kernel
def midFrame (n : Nat) : State := { fitted with
  now := 5000, link := { fitted.link with rx := [126, 5], lastOctet := 5000 - n } }
theorem test_witness_silence_in_frame : AtRest (midFrame 1500) ∧ (midFrame 1500).link.lastOctet + 2000 < 5000 + 501
    ∧ ¬ (midFrame 1500).link.lastOctet + 2000 < 5000 + 500 ∧ (5 : Octet).toNat ≤ 200 := by decide +kernel
theorem test_witness_held_frames :
    (held fitted 1 []).link.holding.length < 4 ∧ 4 ≤ [fr 1 [], fr 1 [], fr 1 [], fr 1 []].length := by decide +kernel
theorem test_witness_check_disagrees :
    let mid : List Octet := [BitVec.ofNat 8 (fr 3 [2]).body.length, (fr 3 [2]).kind] ++ natOctets 2 (fr 3 [2]).tag.toNat
      ++ (fr 3 [2]).body
    (0 : BitVec 16) ≠ crc16 mid ∧ 126 ∉ mid ++ natOctets 2 (0 : BitVec 16).toNat := by decide +kernel
theorem test_witness_frames : fitted.powered = true ∧ AtRest fitted ∧ fitted.link.rx = []
    ∧ (fr 3 [1, 2]).body.length ≤ 200 ∧ 200 < (201 : Octet).toNat ∧ (200 : Octet).toNat ≤ 200 := by decide +kernel
def noticed (n : Nat) : Notice := { number := BitVec.ofNat 8 n, time := none, body := .cab .granted }
def sendingNotice (ns : List Notice) : State := { fitted with link := { fitted.link with tx := .notice (noticed 40), notices := ns } }
theorem test_witness_frame_end : (sendingNotice [noticed 41]).powered = true ∧ (sendingNotice [noticed 41]).outbox = []
    ∧ (sendingNotice [noticed 41]).link.tx ≠ .idle ∧ (sendingNotice [noticed 41]).link.reply = none
    ∧ (sendingNotice [noticed 41]).link.restarting = false := by decide +kernel
theorem test_witness_frame_end_reply :
    let s : State := { sendingNotice [] with link := { (sendingNotice []).link with
      reply := some { kind := 130, tag := 1, outcome := .done, body := .empty }, holding := [fr 2 []] } }
    s.link.reply.isSome = true ∧ s.link.tx ≠ .idle ∧ s.outbox = [] := by decide +kernel
theorem test_witness_frame_end_restarting :
    let s : State := { sendingNotice [] with link := { (sendingNotice []).link with restarting := true } }
    s.link.reply = none ∧ s.link.restarting = true ∧ s.link.tx ≠ .idle := by decide +kernel
theorem test_witness_full_queue :
    32 ≤ (sendingNotice (List.replicate 32 (noticed 1))).link.notices.length
      ∧ (noticed 1).body.isChange = false := by decide +kernel
def changed (t : Nat) : NoticeBody := .change { tag := BitVec.ofNat 48 t, channel := 0, position := 1, state := .fresh, payload := none, publisherAge := 0, receiveAge := 0, time := none }
theorem test_witness_full_queue_change :
    let ns := List.replicate 31 (noticed 1) ++ [{ noticed 2 with body := changed 5 }]
    32 ≤ ns.length ∧ (∀ n ∈ ns, n.body.changeOf ≠ (changed 6).changeOf) ∧ (changed 6).isChange = true
      ∧ (∃ n ∈ ns, n.body.changeOf = (changed 5).changeOf) := by decide +kernel

/-! ## Witnesses: requests -/

theorem test_witness_malformed :
    Ready (held fitted 1 [1]) (fr 1 [1]) reqIdentify ∧ parseNothing [1] = none ∧ parseEndMode [3, 0] = none
      ∧ parsePublish [] = none ∧ parseReadImage [0] = none ∧ parseReadTable [1] = none ∧ parseWatch [1] = none
      ∧ parseJoint [] = none ∧ parseHeading [3] = none ∧ parseSettingsRead [2, 0] = none
      ∧ parseSettingsWrite [0, 16, 1, 2] = none ∧ parseSettingsProtect [0, 2] = none := by decide +kernel
theorem test_witness_malformed_ready :
    Ready (held fitted 6 [3, 0]) (fr 6 [3, 0]) reqSetEndMode ∧ Ready (held fitted 7 []) (fr 7 []) reqPublish
      ∧ Ready (held fitted 18 [0, 16, 1, 2]) (fr 18 [0, 16, 1, 2]) reqSettingsWrite := by decide +kernel
theorem test_witness_unknown : Ready (held fitted 65 []) (fr 65 []) 65 ∧ isRequest 65 = false ∧ isRequest 20 = false
    ∧ isRequest 0 = false := by decide +kernel
theorem test_witness_identify : Ready (held fitted 1 []) (fr 1 []) reqIdentify := by decide +kernel
theorem test_witness_status : Ready (held leader 2 []) (fr 2 []) reqStatus := by decide +kernel
theorem test_witness_start : Ready (held fitted 3 []) (fr 3 []) reqStart ∧ fitted.form.node = .detached
    ∧ fitted.store.op = none ∧ fitted.store.identity.good = true := by decide +kernel
theorem test_witness_start_refused : Ready (held leader 3 []) (fr 3 []) reqStart ∧ leader.form.node ≠ .detached
    ∧ Ready (held State.reset 3 []) (fr 3 []) reqStart ∧ State.reset.store.identity.good = false
    ∧ State.reset.store.op = none := by decide +kernel
def writing : State := { fitted with store := { fitted.store with
  op := some { kind := .write, contents := .identity ident false, begun := 0 } } }
theorem test_witness_start_busy : Ready (held writing 3 []) (fr 3 []) reqStart ∧ writing.form.node = .detached
    ∧ writing.store.op ≠ none := by decide +kernel
theorem test_witness_stop : Ready (held leader 4 []) (fr 4 []) reqStop ∧ leader.form.node ≠ .detached
    ∧ Ready (held fitted 4 []) (fr 4 []) reqStop := by decide +kernel
theorem test_witness_restart : Ready (held leader 5 []) (fr 5 []) reqRestart := by decide +kernel
theorem test_witness_restart_due :
    let s : State := { fitted with link := { fitted.link with restarting := true } }
    s.powered = true ∧ s.link.restarting = true ∧ s.link.reply = none ∧ s.link.tx = .idle ∧ s.store.op = none := by
  decide +kernel
theorem test_witness_power_loss : writing.powered = true
    ∧ writing.store.op.map StoreOp.area = some .identity := by decide +kernel
theorem test_witness_end_mode : Ready (held leader 6 [2, 1]) (fr 6 [2, 1]) reqSetEndMode
    ∧ parseEndMode [2, 1] = some (.e2, .isolated) ∧ (leader.endUnit .e2).mode ≠ .isolated
    ∧ parseEndMode [1, 0] = some (.e1, .line) ∧ (leader.endUnit .e1).mode = .line := by decide +kernel
theorem test_witness_publish : Ready (held fitted 7 [0, 9]) (fr 7 [0, 9]) reqPublish ∧ (0 : Octet).toNat < serv.channels.length
    ∧ Ready (held fitted 7 [1]) (fr 7 [1]) reqPublish ∧ serv.channels.length ≤ (1 : Octet).toNat := by decide +kernel
theorem test_witness_read_image :
    Ready (held leader 8 [1, 0, 0, 0, 0, 0, 0, 2, 0]) (fr 8 [1, 0, 0, 0, 0, 0, 0, 2, 0]) reqReadImage
      ∧ parseReadImage [1, 0, 0, 0, 0, 0, 0, 2, 0] = some (.byPosition 2 0)
      ∧ (leader.findCell (.byPosition 2 0)).isSome = true ∧ leader.findCell (.byPosition 16 7) = none
      ∧ (CellName.byPosition 17 0).ok = false ∧ (CellName.byPosition 16 7).ok = true := by decide +kernel
theorem test_witness_read_table :
    Ready (held leader 9 [1, 7]) (fr 9 [1, 7]) reqReadTable ∧ leader.form.current = some tab1
      ∧ Ready (held leader 9 [3, 7]) (fr 9 [3, 7]) reqReadTable ∧ tab1.size < (3 : Octet).toNat
      ∧ Ready (held fitted 9 [16, 1]) (fr 9 [16, 1]) reqReadTable ∧ ¬ (8 : Octet).toNat ≤ 7 := by decide +kernel
def w5 : List Octet := [0, 0, 0, 0, 0, 5, 7]
def watching (n : Nat) : State := { fitted with chan := { fitted.chan with
  watch := (List.range n).map fun i => ((BitVec.ofNat 48 (i + 5), 7) : Tag × Nat) } }
theorem test_witness_watch :
    Ready (held (watching 0) 10 w5) (fr 10 w5) reqWatch ∧ parseWatch w5 = some (5, 7) ∧ (5, 7) ∉ (watching 0).chan.watch
      ∧ (5, 7) ∈ (watching 1).chan.watch ∧ 16 ≤ (watching 16).chan.watch.length
      ∧ ((99 : Tag), 7) ∉ (watching 16).chan.watch ∧ validTag 5 = true ∧ validTag 0 = false := by decide +kernel
theorem test_witness_unwatch :
    Ready (held (watching 1) 11 w5) (fr 11 w5) reqUnwatch ∧ (5, 7) ∈ (watching 1).chan.watch
      ∧ Ready (held (watching 0) 11 w5) (fr 11 w5) reqUnwatch := by decide +kernel
theorem test_witness_wants_refused :
    Ready (held fitted 14 []) (fr 14 []) reqCabClaim ∧ fitted.form.node ≠ .lead ∧ fitted.form.node ≠ .member
      ∧ Ready (held fitted 15 []) (fr 15 []) reqCabRelease ∧ Ready (held fitted 16 [1]) (fr 16 [1]) reqHeading
      ∧ parseHeading [1] = some .towardE1 ∧ Ready (held fitted 12 [1]) (fr 12 [1]) reqSplit
      ∧ Ready (held fitted 13 [1]) (fr 13 [1]) reqSplitCancel := by decide +kernel
theorem test_witness_joint_out_of_range :
    Ready (held member 12 [16]) (fr 12 [16]) reqSplit ∧ 15 < (16 : Octet).toNat ∧ member.form.node = .member
      ∧ Ready (held member 13 [0]) (fr 13 [0]) reqSplitCancel := by decide +kernel
theorem test_witness_member_wants :
    Ready (held member 14 []) (fr 14 []) reqCabClaim ∧ Ready (held member 15 []) (fr 15 []) reqCabRelease
      ∧ Ready (held member 16 [2]) (fr 16 [2]) reqHeading ∧ Ready (held member 12 [1]) (fr 12 [1]) reqSplit
      ∧ Ready (held member 13 [1]) (fr 13 [1]) reqSplitCancel
      ∧ (entryAt member.entries 1).isSome = true ∧ (entryAt member.entries 2).isSome = true := by decide +kernel
theorem test_witness_bad_joint : Ready (held member 12 [3]) (fr 12 [3]) reqSplit ∧ entryAt member.entries 4 = none := by
  decide +kernel
theorem test_witness_leader_claims : Ready (held leader 14 []) (fr 14 []) reqCabClaim ∧ leader.form.node = .lead
    ∧ leader.ownEntry.any Entry.cab = true ∧ leader.pet.holder = none ∧ leader.pet.answers.length ≤ 16 := by
  decide +kernel

/-! ## Witnesses: the store -/

theorem test_witness_settings_read :
    Ready (held fitted 17 [1, 0]) (fr 17 [1, 0]) reqSettingsRead ∧ parseSettingsRead [1, 0] = some (.service, false)
      ∧ Ready (held writing 17 [0, 1]) (fr 17 [0, 1]) reqSettingsRead ∧ writing.store.op ≠ none := by decide +kernel
def protectedStore : State := { fitted with store := { fitted.store with
  service := { fitted.store.service with protect := true } } }
theorem test_witness_settings_write :
    Ready (held fitted 18 [0, 5, 1]) (fr 18 [0, 5, 1]) reqSettingsWrite
      ∧ (parseSettingsWrite [0, 5, 1]).map Prod.fst = some .identity
      ∧ (parseSettingsWrite [1, 17, 60]).map Prod.fst = some .service
      ∧ Ready (held leader 18 [1, 17, 60]) (fr 18 [1, 17, 60]) reqSettingsWrite ∧ fitted.store.readProtect .identity = false
      ∧ protectedStore.store.readProtect .service = true ∧ protectedStore.store.op = none := by decide +kernel
theorem test_witness_clamps :
    (writeService Service.defaults [(16, [0, 1]), (17, [60]), (21, [0, 249])]).map Service.sampleInterval = some 250
      ∧ numberOf [(17, [60])] 17 = some 60 ∧ numberOf [(17, [60])] 18 = none := by decide +kernel
theorem test_witness_settings_protect :
    Ready (held fitted 19 [1, 1]) (fr 19 [1, 1]) reqSettingsProtect
      ∧ parseSettingsProtect [1, 1] = some (.service, true) ∧ parseSettingsProtect [0, 1] = some (.identity, true)
      ∧ fitted.store.readProtect .service = false ∧ protectedStore.store.readProtect .service = true
      ∧ parseSettingsProtect [1, 0] = some (.service, false)
      ∧ Ready (held protectedStore 19 [1, 0]) (fr 19 [1, 0]) reqSettingsProtect := by decide +kernel
theorem test_witness_store_end : writing.powered = true ∧ writing.outbox = [] ∧ writing.store.op.isSome = true := by
  decide +kernel

/-! ## Witnesses: ends and records -/

def onEnd (s : State) (e : EndId) (f : EndUnit → EndUnit) : State := s.mapEnd e f
theorem test_witness_contact :
    let s := onEnd member .e2 fun u => { u with contact := .closed, filterCount := 7, lastSample := some false, nextSample := some 9500 }
    s.powered = true ∧ (s.endUnit .e2).nextSample = some 9500 ∧ (s.endUnit .e2).contact ≠ .opened
      ∧ s.settings.qualifyCount ≤ (s.endUnit .e2).filterCount + 1 ∧ 0 + 1 < s.settings.qualifyCount := by decide +kernel
theorem test_witness_qualified : AtRest member ∧ member.pet.queue = [] ∧ member.link.notices.length ≤ 30
    ∧ member.fixedEnd .e2 = true := by decide +kernel
theorem test_witness_carrier : AtRest member ∧ (member.endUnit .e1).mode = .line ∧ (member.endUnit .e1).carrier = .absent
    ∧ (onEnd member .e1 EndUnit.carrierUp).e1.carrier = .present ∧ AtRest fitted ∧ fitted.form.node = .detached
    ∧ ((member.advance 100).endUnit .e1).freeTicks = 100 ∧ ((member.advance 99).endUnit .e1).freeTicks = 99
    ∧ (((onEnd member .e1 EndUnit.carrierUp).advance 200).endUnit .e1).freeTicks = 200
    ∧ (((onEnd fitted .e1 EndUnit.carrierUp).advance 199).endUnit .e1).freeTicks = 199 := by
  decide +kernel
def markOs : List Octet := markRecord (markOf 7 3) .far
def rollOs : List Octet :=
  rollRecord
    { kind := .current, epoch := 1, size := 3, first := 1, entries := tab2.entries,
      answer := some ({ position := 2, tag := 0, kind := .cabClaim, wantEnd := none, outcome := .granted,
                        reason := none }) }
    .far
def petOs : List Octet := petitionRecord 2 7 .none .ref
def chanOs : List Octet :=
  channelRecord { source := 2, channel := 0, epoch := 1, age := 3, stale := true, payload := List.replicate 32 1 } .ref
set_option maxRecDepth 100000 in
theorem test_witness_passing : AtRest fitted ∧ fitted.form.applicant = none ∧ fitted.e1.mode = .line ∧ fitted.e2.mode = .line
    ∧ ((fitted.advance 0).endUnit EndId.e1.other).sending = none ∧ goodRecordOf kindMark markOs = true
    ∧ goodRecordOf kindRoll rollOs = true ∧ goodRecordOf kindPetition petOs = true
    ∧ goodRecordOf kindChannel chanOs = true := by decide +kernel
theorem test_witness_bad_record : badRecord [161, 40, 0] = true ∧ AtRest leader ∧ (leader.endUnit .e1).mode = .line := by
  decide +kernel
def sight1 : Sighting := { leader := 30, epoch := 0, period := 10000, count := 3, arrival := 0 }
theorem test_witness_foreign_rest : AtRest leader ∧ AtRest member := by decide +kernel
theorem test_witness_foreign_mark :
    let s := onEnd leader .e1 fun u => { u with phase := .sighting, sighting := some sight1 }
    s.powered = true ∧ s.detecting .e1 = true ∧ (s.endUnit .e1).segregated = false
      ∧ (s.endUnit .e1).timeoutApplies = true := by decide +kernel
def outerMember : State := { member with form := { member.form with steering := some { position := 3, size := 3, orientation := .facing } } }
theorem test_witness_foreign_quiet :
    let s := onEnd outerMember .e2 fun u => { u with phase := .reported, sighting := some sight1, watch := .quietWatch true }
    s.form.node = .member ∧ s.detecting .e2 = true ∧ (s.endUnit .e2).phase = .reported
      ∧ (s.endUnit .e2).watch = .quietWatch true := by decide +kernel
def seen (u : EndUnit) : EndUnit := { u with
  phase := .collecting, contact := .closed, sighting := some { sight1 with leader := 30, epoch := 9 }
  foreign := some { size := 1, entries := [entry 1 30 .outer .outer] }
  adjacent := some { source := .leader, side := .ref } }
def foreignOs : List Octet := relayCopy (markRecord { markOf 30 1 with epoch := 9 } .ref)
theorem test_witness_detection :
    let s := onEnd outerMember .e2 seen
    MarkComes s .e2 foreignOs { markOf 30 1 with epoch := 9 } true ∧ s.leaderTag ≠ some 30 ∧ recordHop foreignOs ≠ 0
      ∧ ((s.endUnit .e2).report (s.fixedEnd .e2)).isSome = true ∧ s.form.node = .member
      ∧ (outerMember.endUnit .e2).phase = .quiet := by decide +kernel
theorem test_witness_waiting :
    let s := onEnd member .e1 fun u => { u with
      sending := some { record := { octets := petOs, heard := some (8990, 9005) }, ends := 9015 }, waiting := some { octets := petOs, heard := none } }
    s.powered = true ∧ (s.endUnit .e1).waiting.isSome = true ∧ s.now ≤ 9015 ∧ petOs ≠ [] := by decide +kernel
theorem test_witness_third_mark : listening.powered = true ∧ listening.form.node = .listen
    ∧ (listening.endUnit .e1).mode = .line ∧ decodeMark markOs = some (markOf 7 3)
    ∧ listening.form.listenCandidate = some ((markOf 7 3).leader, 2)
    ∧ ({ listening with e2 := { listening.e2 with mode := .isolated } } : State).form.node = .listen := by decide +kernel
theorem test_witness_mark_in_window : member.synced = true ∧ member.timer.lock = .locked ∧ member.timer.early < 3
    ∧ member.outer .e1 = false ∧ member.upstream = some .e1 ∧ member.timer.followed = some ((markOf 7 3).leader, (markOf 7 3).epoch)
    ∧ member.windowOpen ≤ member.now + 990 ∧ member.now + 1010 ≤ member.windowClose := by decide +kernel
theorem test_witness_mark_comes : MarkComes member .e1 markOs (markOf 7 3) false ∧ FollowsOn member .e1
    ∧ member.timer.followed = some (7, 1) ∧ member.now + 989 < member.windowOpen := by decide +kernel
def relocking : State := { member with timer := { member.timer with early := 3 } }
theorem test_witness_relock : MarkComes relocking .e1 markOs (markOf 7 3) false ∧ relocking.synced = true
    ∧ relocking.timer.early = 3 ∧ relocking.upstream = some .e1 ∧ AtRest relocking ∧ relocking.chan.watch = [] := by
  decide +kernel
/-- The relock in a cycle whose early hold stands, its mark before the window. -/
theorem test_witness_relock_held :
    let s : State := { relocking with timer := { relocking.timer with earlyHold := true, earlySeen := true } }
    MarkComes s .e1 markOs (markOf 7 3) false ∧ s.timer.early = 3 ∧ s.now + 989 < s.windowOpen ∧ AtRest s := by
  decide +kernel
def markOs' (m : MarkFields) : List Octet := markRecord m .far
def alienFields : MarkFields := { markOf 30 3 with epoch := 9 }
theorem test_witness_alien : MarkComes member .e1 (markOs' alienFields) alienFields false
    ∧ MarkComes leader .e2 (markOs' alienFields) alienFields false ∧ AtRest member ∧ AtRest leader
    ∧ alienFields.leader ≠ 7 ∧ holdsTag member.entries alienFields.leader = false
    ∧ (markOf 5 3).leader = member.ownTag := by decide +kernel
def nextMark (t : Tag) : MarkFields := { markOf t 3 with epoch := 2 }
def tab3 : Table := { tab2 with epoch := 2 }
def awaiting : State := { member with form := { member.form with pendingT := some tab3 } }
theorem test_witness_epoch_advance : MarkComes awaiting .e1 (markOs' (nextMark 7)) (nextMark 7) false ∧ FollowsOn awaiting .e1
    ∧ awaiting.synced = true ∧ awaiting.timer.followed = some (7, (nextMark 7).epoch - 1) ∧ InWindow awaiting (9000 + 990)
    ∧ holdsTag tab3.entries 7 = true ∧ holdsTag tab3.entries awaiting.ownTag = true ∧ tab3.epoch = (nextMark 7).epoch
    ∧ member.form.pendingT = none ∧ member.form.armedA = none ∧ member.form.armedB = none := by decide +kernel
/-- The member's end with a carrier. -/
def carried (s : State) (e : EndId) : State := onEnd s e EndUnit.carrierUp
def armedMember : State := { member with form := { member.form with
  armedA := some { epoch := 2, entries := [entry 1 7 .outer .outer] }, armedB := some tab3, designatedB := some 8 } }
theorem test_witness_successor : MarkComes armedMember .e1 (markOs' (nextMark 8)) (nextMark 8) false
    ∧ FollowsOn armedMember .e1 ∧ armedMember.timer.followed = some (7, (nextMark 8).epoch - 1) ∧ (8 : Tag) ≠ 7
    ∧ holdsTag armedMember.entries 8 = true ∧ holdsTag tab3.entries 8 = true ∧ (nextMark 8).n = tab3.size
    ∧ InWindow armedMember (9000 + 1010) ∧ armedMember.form.armedA.map Table.epoch = some (nextMark 8).epoch
    ∧ tab3.epoch = (nextMark 8).epoch := by decide +kernel
/-- The designated B leader of the member's armed tables: car 5 itself. -/
def designated : State := { armedMember with form := { armedMember.form with designatedB := some 5 } }
theorem test_witness_end_events :
    (member.form.node = .member ∧ member.inner .e2 = true ∧ member.upstream = some .e1)
      ∧ (leader.form.node = .lead ∧ leader.inner .e2 = true ∧ leader.pet.inProgress = none
        ∧ leader.pet.work.any (WorkItem.breaks leader.ownTag .e2) = false)
      ∧ LineComesBy designated .e1 1 ∧ designated.form.armedA.map Table.epoch = some (1 + 1)
      ∧ designated.form.armedB = some tab3 ∧ tab3.epoch = 1 + 1 ∧ holdsTag tab3.entries designated.ownTag = true
      ∧ LineComesBy member .e1 1 ∧ member.form.designatedB ≠ some member.ownTag ∧ LineComesBy orphan .e1 1
      ∧ orphan.form.node = .orphan ∧ outerMember.inner .e2 = false := by decide +kernel
theorem test_witness_losses :
    Ready (held (carried member .e1) 6 [1, 1]) (fr 6 [1, 1]) reqSetEndMode ∧ parseEndMode [1, 1] = some (.e1, .isolated)
      ∧ ((carried member .e1).endUnit .e1).carrier = .present ∧ AtRest (carried orphan .e1)
      ∧ (((carried orphan .e1).advance 200).endUnit .e1).freeTicks = 200 := by decide +kernel
def inSlot (s : State) (slot : Nat) : State := { s with timer := { s.timer with counter := 40 + 100 * slot, nextSlot := slot + 1 } }
set_option maxRecDepth 100000 in
theorem test_witness_roll : (inSlot member 0).synced = true ∧ (inSlot member 0).outer .e1 = false
    ∧ (inSlot member 0).timer.acceptEnd = some .e1 ∧ ((inSlot member 0).advance 0).arrivalCell.map Prod.fst = some 0
    ∧ goodRecordOf kindRoll rollOs = true ∧ ((decodeRoll rollOs).bind RollFields.answer).map RollAnswer.position = some 2
    ∧ (inSlot member 0).ownPosition = 2 := by decide +kernel
theorem test_witness_petition : leader.outer .e2 = false ∧ goodRecordOf kindPetition petOs = true ∧ petitionSource petOs = 2
    ∧ leader.n = 2 ∧ leader.ownPosition = 1 ∧ (entryAt leader.entries 2).map Entry.tag = some (petitionSender petOs)
    ∧ ((inSlot leader 2).advance 0).arrivalCell = some (petitionCell 2) ∧ petitionKind petOs = some .none
    ∧ petitionEnd petOs = some none ∧ petitionBodyOctets petOs = [] := by decide +kernel
/-! Petitions of car 7 to the leader, at its end E2, in slot 2. -/

def takes : State := inSlot leader 2
def petBy (b : PetitionBody) : List Octet := petitionRecord 2 7 b .ref
def car7 : Entry := entry 2 7 .service .outer
def header1 : JoinHeader := report1.header
def asm1 (ens : List Entry) : JoinAssembly := { reporter := 7, reporterEnd := .e2, header := header1, entries := ens }
def sp7 (st : SplitStage) : SplitRecord := { sp1 with stage := st }
def withPet (f : PetitionUnit → PetitionUnit) : State := { takes with pet := f takes.pet }
theorem test_witness_cab_claim : WantComes takes .e2 (petBy .cabClaim) car7 .cabClaim 0
    ∧ Answerable takes car7.tag .cabClaim ∧ takes.pet.holder = none := by decide +kernel
theorem test_witness_cab_wants :
    WantComes takes .e2 (petBy .cabRelease) car7 .cabRelease 0 ∧ Answerable takes car7.tag .cabRelease
      ∧ WantComes takes .e2 (petBy (.heading .towardE1)) car7 (.heading .towardE1) 0
      ∧ Answerable takes car7.tag (.heading .towardE1) ∧ entryOf takes.entries car7.tag = some car7 := by decide +kernel
theorem test_witness_repeated_want :
    (withPet fun p => { p with answers := [answerTo 7 .cabClaim none .granted none] }).answerWaits car7.tag false .cabClaim
        none = true
      ∧ 16 ≤ (withPet fun p => { p with answers := List.replicate 16 (answerTo 8 .cabClaim none .granted none) }).pet.answers.length
      ∧ car7.tag ≠ takes.ownTag := by decide +kernel
theorem test_witness_split_wants :
    WantComes takes .e2 (petBy (.split 1)) car7 (.split 1) 0 ∧ takes.answerWaits car7.tag false .split none = false
      ∧ RoomFor takes car7.tag ∧ entryAt takes.entries 1 = some (entry 1 5 .outer .service)
      ∧ entryAt takes.entries (1 + 1) = some car7 ∧ takes.pet.split = none ∧ takes.pet.work = []
      ∧ (WorkItem.split 5 5 7 1).splits 5 7 = true ∧ (sp7 .armed).low = 5 ∧ (sp7 .armed).high = 7
      ∧ (sp7 .arming).stage ≠ .armed ∧ (entry 1 5 .outer .fixed).farKind = .fixed := by decide +kernel
theorem test_witness_cancel_wants :
    WantComes takes .e2 (petBy (.splitCancel 1)) car7 (.splitCancel 1) 0 ∧ Answerable takes car7.tag (.splitCancel 1)
      ∧ (sp7 .executing).stage = .executing ∧ (sp7 .armed).stage ≠ .executing ∧ (sp7 .armed).requester ≠ takes.ownTag
      ∧ takes.pet.answers.length < 15 ∧ (WorkItem.split 7 5 7 1).splits 5 7 = true
      ∧ (∀ it ∈ takes.pet.work, it.splits 5 7 = false) := by decide +kernel
def brkTime : TrainTime := { round := 3, index := 0, tick := 90 }
theorem test_witness_break_want :
    WantComes takes .e2 (petBy (.brk .e1 .opened brkTime false)) car7 (.brk .e1 .opened brkTime false) 0
      ∧ takes.answerWaits car7.tag false .brk (some .e1) = false ∧ takes.pet.inProgress = none
      ∧ (WorkItem.brk 7 .e1 .line none false).breaks car7.tag .e1 = true := by decide +kernel
set_option maxRecDepth 100000 in
theorem test_witness_join_fragment :
    WantComes takes .e2 (petBy (.joinSeen .e2 header1 0 report1.entries)) car7 (.joinSeen .e2 header1 0 report1.entries) 0
      ∧ WantComes takes .e2 (petBy (.joinSeen .e2 header1 1 [])) car7 (.joinSeen .e2 header1 1 []) 0
      ∧ takes.answerWaits car7.tag false .joinSeen (some .e2) = false ∧ RoomFor takes car7.tag
      ∧ (report1.entries.map Entry.position).Nodup ∧ (asm1 []).isOf car7.tag .e2 = true
      ∧ (entryAt (asm1 report1.entries).entries 1).isSome = true ∧ entryAt (asm1 []).entries 1 = none
      ∧ (WorkItem.join 7 .e2 report1).joins car7.tag .e2 = true := by decide +kernel
theorem test_witness_join_signals :
    WantComes takes .e2 (petBy (.foreignQuiet .e2 1 .towardRef)) car7 (.foreignQuiet .e2 1 .towardRef) 0
      ∧ Answerable takes car7.tag (.foreignQuiet .e2 1 .towardRef)
      ∧ WantComes takes .e2 (petBy (.principalReady .e2)) car7 (.principalReady .e2) 0
      ∧ Answerable takes car7.tag (.principalReady .e2) ∧ (join1 .principal .admitting 3).reporter = car7.tag
      ∧ (join1 .principal .admitting 3).reporterEnd = .e2 ∧ (join1 .absorbed .awaitReady 3).role = .absorbed
      ∧ (join1 .absorbed .awaitReady 3).phase = .awaitReady := by decide +kernel
/-- The 2 + 3 cars of a join at the far end with the absorbed position m: the absorbed cars turned, last first (R64). -/
theorem test_merge_turned :
    tab1.entries.map Entry.position = List.range' 1 2 ∧ tab2.entries.map Entry.position = List.range' 1 3
      ∧ (mergeTables tab1.entries true tab2.entries false true).map (fun en => (en.tag, en.orientation, en.refKind, en.farKind))
        = [(5, .facing, .outer, .service), (7, .facing, .service, .fixed), (8, .reversed, .fixed, .service),
           (5, .reversed, .service, .service), (7, .reversed, .service, .outer)] := by decide +kernel

/-! Roll records of the member's leader, in slot 0. -/

def hears : State := inSlot member 0
def rollOf (kind : TableKind) (epoch : Epoch) (ens : List Entry) (a : Option RollAnswer) : RollFields :=
  { kind := kind, epoch := epoch, size := 3, first := 1, entries := ens, answer := a }
def answerIn (k : WantKind) (e : Option EndId) (o : AnswerOutcome) (why : Option Reason) : RollAnswer :=
  { position := 2, tag := 0, kind := k, wantEnd := e, outcome := o, reason := why }
def abandonedAnswer : RollAnswer := answerIn .joinSeen (some .e2) .joinAbandoned (some .deadline)
def rollAbandoned : RollFields := rollOf .pending 2 tab2.entries (some abandonedAnswer)
set_option maxRecDepth 100000 in
theorem test_witness_answer_delivered :
    AnswerComes hears .e1 (rollRecord rollAbandoned .far) rollAbandoned abandonedAnswer 0 ∧ AtRest hears
      ∧ hears.link.notices.length < 32
      ∧ (let u := { hears.e2 with phase := DetectPhase.reported, attempts := 2 }
        u.phase = .reported ∧ u.segregated = false ∧ u.attempts = 2)
      ∧ hears.e2.phase ≠ .reported := by decide +kernel
set_option maxRecDepth 100000 in
theorem test_witness_answers_read :
    ([answerIn .brk (some .e2) .done none, answerIn .principalReady (some .e2) .stale none, answerIn .split none .armed none,
        answerIn .cabRelease none .notHolder none, answerIn .joinSeen (some .e2) .incomplete none].all fun a =>
      decodeRoll (rollRecord (rollOf .current 1 tab2.entries (some a)) .far) = some (rollOf .current 1 tab2.entries (some a)))
      = true := by decide +kernel
def unsynced : State := { hears with timer := { hears.timer with followed := some (7, 2) } }
def armedPart : RollFields := rollOf .armedB 2 tab2.entries none
def currentPart (epoch : Epoch) : RollFields := rollOf .current epoch tab2.entries none
set_option maxRecDepth 100000 in
theorem test_witness_armed_part : RollComes hears .e1 (rollRecord armedPart .far) armedPart 0
    ∧ hears.timer.followed.map Prod.snd = some 1 ∧ armedPart.epoch = 1 + 1 := by decide +kernel
set_option maxRecDepth 100000 in
theorem test_witness_current_part :
    RollComes hears .e1 (rollRecord (currentPart 1) .far) (currentPart 1) 0 ∧ hears.synced = true
      ∧ (currentPart 1).size = tab2.size ∧ ((currentPart 1).entries.map Entry.position).Nodup
      ∧ ∀ en ∈ (currentPart 1).entries, (entryAt tab2.entries en.position).map Entry.tag = some en.tag := by decide +kernel
set_option maxRecDepth 100000 in
theorem test_witness_unsynced_part : RollComes unsynced .e1 (rollRecord (currentPart 2) .far) (currentPart 2) 0
    ∧ unsynced.synced = false ∧ unsynced.timer.followed.map Prod.snd = some 2 := by decide +kernel
theorem test_witness_stored :
    let a : Assembly := { epoch := 1, size := 3, entries := [entry 1 7 .outer .service, entry 3 8 .service .outer] }
    (a.entries.map Entry.tag).Nodup ∧ (a.entries.map Entry.position).Pairwise (· < ·)
      ∧ (∀ y ∈ a.entries, y.tag = (entry 2 5 .service .service).tag → y.position = 2)
      ∧ (∃ y ∈ a.entries, y.tag = (entry 2 8 .service .service).tag ∧ y.position ≠ 2) ∧ a.epoch ≠ 2 := by decide +kernel
theorem test_witness_channel :
    let s := { inSlot leader 6 with timer := { (inSlot leader 6).timer with index := 0 } }
    s.outer .e2 = false ∧ goodRecordOf kindChannel chanOs = true ∧ (decodeChannelRecord chanOs).channel = 0
      ∧ (s.advance 0).cellCheck 2 0 = true ∧ (decodeChannelRecord chanOs).source ≠ s.ownPosition
      ∧ ((entryAt s.entries 2).map Entry.channels) = some [chan1] ∧ (cellAt s.cells 2 0).isSome = true
      ∧ tab1.epoch = (decodeChannelRecord chanOs).epoch := by decide +kernel

/-! ## Witnesses: the leader's cycles -/

theorem test_witness_listen : listening.form.node = .listen ∧ listening.store.snapshot = some snap
    ∧ listening.pet = PetitionUnit.initial := by decide +kernel
theorem test_witness_generated : leader.leadStart = some .generated := by decide +kernel
/-- A REVERSED leader of one sided EVERY channel, with a published value. -/
def reversedLeader : State :=
  let t : Table := { tab1 with entries := [{ entry 1 5 .outer .service with orientation := .reversed }, entry 2 7 .service .outer] }
  let o : OutChannel := { OutChannel.initial with staging := List.replicate 16 1 ++ List.replicate 16 2, written := true }
  { leader with form := { leader.form with current := some t }, chan := { leader.chan with out := leader.chan.out.set 0 o } }
theorem test_witness_takes : reversedLeader.leadStart = some .generated
    ∧ (reversedLeader.planner.inForce.map fun p => p.channelsAt 1 1) = some [0]
    ∧ 0 < reversedLeader.settings.channels.length ∧ (reversedLeader.chan.out[0]?).map OutChannel.written = some true
    ∧ (reversedLeader.chan.out[7]?).isSome = true ∧ reversedLeader.ownOrientation = some .reversed
    ∧ (cellAt reversedLeader.cells 1 0).isSome = true ∧ (cellAt reversedLeader.cells 2 0).isSome = true := by decide +kernel
def tabOwn (tag : Nat) : Table := { epoch := 2, entries := [entry 1 tag .outer .outer] }
def announcing : State := { leader with
  form := { leader.form with procedure := some .announce, countdown := 1, pendingT := some (tabOwn 5) } }
theorem test_witness_switch : announcing.leadStart = some .switchMark ∧ announcing.pet.queue = []
    ∧ holdsTag [entry 1 5 .outer .outer] announcing.ownTag = true := by decide +kernel
/-- A switch from cars 5 and 7, with 9 gone before, to cars 9 and 5: 9 comes back, 7 leaves. -/
def carrying : State :=
  let gone : ImageCell :=
    { tag := 9, channel := 0, position := none, state := .gone, payload := some [1], publisherAge := 3, receiveAge := 255 }
  let t : Table := { epoch := 2, entries := [entry 1 9 .outer .service, entry 2 5 .service .outer] }
  { announcing with
    form := { announcing.form with pendingT := some t }
    chan := { announcing.chan with image := announcing.chan.image.map fun img => img ++ [gone] } }
theorem test_witness_carrying : carrying.leadStart = some .switchMark ∧ carrying.pet.queue = []
    ∧ ([1, 2] : List Nat).Nodup ∧ (cellOfTag carrying.cells 9 0).map ImageCell.position = some none
    ∧ (cellAt carrying.cells 2 0).map ImageCell.tag = some 7 ∧ (9 : Tag) ≠ carrying.ownTag := by decide +kernel
def arming (pr : Procedure) (sp : SplitRecord) : State := { leader with
  form := { leader.form with procedure := some pr, countdown := 1,
                               armedA := some (tabOwn 5), armedB := some (tabOwn 7) },
  pet := { leader.pet with split := some sp, inProgress := some (.split 7 5 7 1) } }
theorem test_witness_armed : (arming .arming { sp1 with stage := .arming }).leadStart = some .armedReached
    ∧ RoomFor (arming .arming { sp1 with stage := .arming }) 7
    ∧ (arming .arming { sp1 with stage := .arming }).pet.deferred = false := by decide +kernel
theorem test_witness_split_switch : (arming .armed { sp1 with stage := .executing }).leadStart = some .splitSwitch
    ∧ (arming .armed { sp1 with stage := .executing }).ownTag = 5 := by decide +kernel
def joining (r : JoinRole) (p : JoinPhase) (w : Nat) : State := { leader with
  form := { leader.form with procedure := some (if r = .principal then .admitting else .steady), otherTag := some 30 },
  pet := { leader.pet with join := some (join1 r p w), inProgress := some (.join 7 .e2 report1) } }
theorem test_witness_deadlines : (joining .principal .admitting 63).leadStart = some .principalDeadline
    ∧ (joining .absorbed .awaitReady 31).leadStart = some .absorbedDeadline
    ∧ (joining .principal .admitting 62).leadStart = some .generated
    ∧ RoomFor (joining .principal .admitting 63) 7 := by decide +kernel
def yieldingLeader : State := { leader with form := { leader.form with
  procedure := some .yielding, countdown := 1, otherTag := some 30 } }
theorem test_witness_yield : yieldingLeader.leadStart = some .yieldEnd := by decide +kernel
def led1 : Led := { table := { epoch := 2, entries := [entry 1 5 .outer .outer] }, by_ := .succession }
def newLeader : State := { member with
  form := { member.form with node := .lead, led := some led1 }, timer := { member.timer with lock := .acquiring } }
theorem test_witness_first : newLeader.leadStart = some .firstMark ∧ newLeader.form.led = some led1
    ∧ led1.by_ ≠ .designatedB ∧ holdsTag led1.table.entries newLeader.ownTag = true ∧ newLeader.pet.queue = [] := by
  decide +kernel
def chan8 (en : Entry) : Entry := { en with channels := List.replicate 8 chan1 }
def ledB : Led := { led1 with table := { led1.table with entries := (tab1.entries).map chan8 }, by_ := .designatedB }
def fastClock (s : State) : State := { s with store := { s.store with
  snapshot := some { snap with service := { serv with period := 2000 } } } }
def newB : State := fastClock { newLeader with form := { newLeader.form with led := some ledB } }
theorem test_witness_first_designated : newB.leadStart = some .firstMark ∧ newB.form.led = some ledB
    ∧ holdsTag ledB.table.entries newB.ownTag = true ∧ AtRest newB ∧ newB.chan.watch = []
    ∧ roundCapacity newB.settings.period ledB.table.size < grantedDemand ledB.table.entries
    ∧ ¬ roundCapacity 10000 ledB.table.size < grantedDemand ledB.table.entries ∧ newB.link.notices.length ≤ 28 := by
  decide +kernel
/-- Four cars of four SAFETY channels under 2,000 ticks: the car farthest from the leader is trimmed. -/
def chan4 (en : Entry) : Entry := { en with channels := List.replicate 4 chan1 }
def ledB4 : Led := { table := { epoch := 2, entries := [entry 1 6 .outer .service, entry 2 5 .service .service,
  entry 3 7 .service .service, entry 4 8 .service .outer].map chan4 }, by_ := .designatedB }
def trimmedB : State := fastClock { newLeader with form := { newLeader.form with led := some ledB4 } }
theorem test_witness_first_trimmed : trimmedB.leadStart = some .firstMark ∧ holdsTag ledB4.table.entries trimmedB.ownTag = true
    ∧ roundCapacity trimmedB.settings.period ledB4.table.size < grantedDemand ledB4.table.entries
    ∧ (grantKept trimmedB.settings.period trimmedB.ownTag ledB4.table.entries).map Entry.tag = [6, 5, 7]
    ∧ announceLeast 3 = 4 ∧ announceLeast ledB4.table.size = 6 ∧ trimmedB.pet.deferred = false := by decide +kernel
theorem test_witness_armed_timeout : (arming .armed sp1).form.node = .lead ∧ sp1.stage = .armed
    ∧ RoomFor (arming .armed sp1) sp1.requester := by decide +kernel
theorem test_witness_silence :
    let s : State := { leader with pet := { leader.pet with silenceDue := [7] } }
    s.powered = true ∧ s.pet.silenceDue = [7] ∧ s.pet.work.length < 8 := by decide +kernel
theorem test_witness_owed_steady :
    let s : State := { leader with pet := { leader.pet with deferred := true, work := [.dropout 7] } }
    s.pet.deferred = true ∧ s.pet.inProgress = none ∧ s.pet.work ≠ [] := by decide +kernel
theorem test_witness_dropout :
    let s : State := { leader with pet := { leader.pet with work := [.dropout 7] } }
    s.leading = true ∧ s.pet.inProgress = none ∧ s.pet.deferred = false ∧ s.form.procedure = some .steady
      ∧ holdsTag s.entries 7 = true
      ∧ (s.pet.silence.any fun c => c.tag == 7 && decide (s.settings.silenceLimit ≤ c.count)) = true := by decide +kernel
def works (it : WorkItem) : State := { leader with pet := { leader.pet with work := [it] } }
theorem test_witness_break_item : ItemStarts (works (.brk 5 .e2 .line none false)) (.brk 5 .e2 .line none false) []
    ∧ innerIn leader.entries 5 .e2 = true ∧ (entryOf leader.entries 5).isSome = true := by decide +kernel
theorem test_witness_join_item : ItemStarts (works (.join 7 .e2 report1)) (.join 7 .e2 report1) []
    ∧ holdsTag leader.entries 7 = true ∧ outerIn leader.entries 7 .e2 = true ∧ RoomFor leader 7
    ∧ leader.joinRefusal report1 10000 = none
    ∧ leader.joinRefusal { report1 with entries := tab1.entries } 10000 = some .conflict
    ∧ leader.joinRefusal { report1 with header := { report1.header with size := 15 } } 10000 = some .limit := by
  decide +kernel
theorem test_witness_split_item : ItemStarts (works (.split 7 5 7 1)) (.split 7 5 7 1) []
    ∧ rejoin 5 7 leader.entries = some (1, 5, 7) := by decide +kernel
theorem test_witness_enroll_item :
    ItemStarts (works (.enroll 9 (entry 3 9 .service .service) (.after 7 none)))
        (.enroll 9 (entry 3 9 .service .service) (.after 7 none)) []
      ∧ TagPlace.point leader.entries (.after 7 none) = some 2 ∧ TagPlace.point leader.entries (.after 5 none) = none
      ∧ leader.enrollRefusal (entry 3 9 .service .service) = none
      ∧ leader.enrollRefusal (entry 3 7 .service .service) = some .conflict := by decide +kernel
theorem test_witness_roll_cell : leader.timer.lock ≠ .idle ∧ leader.timer.nextSlot < leader.slots ∧ leader.leading = true
    ∧ leader.timer.nextSlot = 0 ∧ leader.timer.latched.map MarkFields.procedure = some .steady
    ∧ SendsAtOnce leader .e2 40 ∧ leader.pet.answers = []
    ∧ ((answerTo 7 .brk (some .e1) .done none).carried leader.entries).isSome = true := by decide +kernel
theorem test_witness_channel_cell :
    let s : State := { leader with timer := { leader.timer with nextSlot := 5, counter := 440 }, chan := { leader.chan with
      live := [{ channel := 0, payload := [], age := 0, stale := false }] } }
    s.planner.inForce = some (makePlan tab1 10000) ∧ s.timer.nextSlot < s.slots ∧ s.ownPosition = 1
      ∧ ((makePlan tab1 10000).owner 5 0).map PlanCell.position = some 1 ∧ SendsAtOnce s .e2 100 := by decide +kernel
theorem test_witness_cell :
    let s : State := { member with timer := { member.timer with nextSlot := 2, counter := 140 } }
    s.timer.lock ≠ .idle ∧ s.timer.nextSlot < s.slots ∧ s.synced = true ∧ s.timer.kind = .marked ∧ s.pet.queue = []
      ∧ petitionCell s.ownPosition = (s.timer.nextSlot, s.timer.index) ∧ s.condition .e1 = .active
      ∧ ((s.advance 100).endUnit .e1).sending = none := by decide +kernel
theorem test_witness_want_cell :
    let s : State := { member with timer := { member.timer with nextSlot := 2, counter := 140 },
                                   pet := { member.pet with queue := [.cabClaim] } }
    s.pet.queue = [.cabClaim] ∧ s.bodyOf .cabClaim = some .cabClaim ∧ SendsAtOnce s .e1 100 := by decide +kernel

/-! ## Witnesses: the follower's cycles -/

theorem test_witness_flywheel_synced : member.synced = true := by decide +kernel
theorem test_witness_flywheel : member.followStart = some .flywheel ∧ member.timer.reference = some 0
    ∧ member.timer.period = some 10000 ∧ member.now ≤ member.windowClose := by decide +kernel
theorem test_witness_coasting : orphan.followStart = some .coasting ∧ orphan.form.node = .orphan
    ∧ orphan.now ≤ 0 + 10000 ∧ orphan.chan.image.isSome = true ∧ member.chan.image.isSome = true := by decide +kernel
theorem test_witness_window : member.timer.lock = .locked ∧ member.timer.reference ≠ none := by decide +kernel
def missing2 : State := { member with timer := { member.timer with missed := 2 } }
theorem test_witness_orphan : missing2.followStart = some .orphanEntry ∧ missing2.synced = true
    ∧ missing2.form.fastPath = none := by decide +kernel
theorem test_witness_fast_path :
    let s : State := { missing2 with form := { missing2.form with fastPath := some none } }
    s.followStart = some .orphanEntry ∧ s.form.fastPath.isSome = true ∧ s.timer.followed.map Prod.snd = some 1
      ∧ s.upstream = some .e1 ∧ s.sideOf .e1 = .ref := by decide +kernel
theorem test_witness_yield_seek :
    let s : State := { member with form := { member.form with yieldRecord := some { principal := 30, cyclesLeft := 1 } } }
    s.followStart = some .yieldSeek ∧ s.synced = true ∧ s.timer.followed = some (7, 1) := by decide +kernel
def lateOrphan : State := { orphan with timer := { orphan.timer with missed := 7 } }
theorem test_witness_succession : lateOrphan.followStart = some .succession ∧ holdsTag lateOrphan.entries 7 = true
    ∧ positionOf lateOrphan.entries 7 ≠ 0 := by decide +kernel
def seekOf (formerLead : Bool) : SeekRecord :=
  { principal := 30, jointEnd := some .e2, locked := false, lockEnd := none, oldLeader := 7, oldEpoch := 1, oldPeriod := 10000,
    formerLead := formerLead, deadline := 650000, awaitCurrent := false, lastOwnMark := none }
def seeking (formerLead : Bool) : State := { orphan with form := { orphan.form with node := .seek, seek := some (seekOf formerLead) } }
theorem test_witness_seek : (seeking true).form.node = .seek ∧ (seeking true).form.seek = some (seekOf true)
    ∧ (seeking false).form.seek = some (seekOf false) ∧ (seekOf true).formerLead = true
    ∧ (seekOf false).formerLead = false := by decide +kernel
def enrolling : ApplicantRecord := { ApplicantRecord.initial true with status := .enrolling, roundStarts := some 8, attempt := 15 }
def applying : State := { fitted with form := { fitted.form with node := .applicant, applicant := some enrolling } }
def hearing : State :=
  { applying with form := { applying.form with
      asmCurrent := some { epoch := 1, size := 2, entries := [entry 1 7 .outer .service] } } }
theorem test_witness_read_heard :
    Ready (held applying 9 [2, 1]) (fr 9 [2, 1]) reqReadTable ∧ applying.form.node = .applicant
      ∧ applying.form.asmCurrent = none ∧ Ready (held hearing 9 [2, 1]) (fr 9 [2, 1]) reqReadTable
      ∧ hearing.form.node = .applicant ∧ hearing.form.asmCurrent.isSome = true
      ∧ (Ready (held orphan 9 [2, 1]) (fr 9 [2, 1]) reqReadTable ∧ orphan.form.node = .orphan) := by decide +kernel
def enrollReady : ApplicantRecord := { enrolling with
  place := some (.after 1), orientation := some .facing, roundStarts := none, attempt := 0 }
theorem test_witness_enroll_cell :
    let s : State := { applying with
      form := { applying.form with applicant := some enrollReady }
      timer := { member.timer with nextSlot := 4, counter := 400, round := 5, index := 0 } }
    s.timer.lock ≠ .idle ∧ s.timer.nextSlot < s.slots ∧ s.timer.kind = .marked
      ∧ (s.timer.latched.bind fun m => applicantCell m.n) = some (s.timer.nextSlot, s.timer.index) ∧ s.timer.round.toNat % 8 = s.ownTag.toNat / 8 ^ enrollReady.attempt % 8
      ∧ ((s.advance 40).endUnit .e1).sending = none ∧ enrollReady.sentRound ≠ some s.timer.round := by decide +kernel
theorem test_witness_enroll : applying.form.node = .applicant ∧ applying.form.applicant = some enrolling
    ∧ enrolling.status = .enrolling ∧ enrolling.roundStarts = some 8 := by decide +kernel

/-! ## One step -/

/-- What a command answers, as far as one reading of its next state goes. -/
def after {α : Type} (c : Instr) (s : State) (read : State → α) : Option α :=
  match exec c s with
  | .next t => some (read t)
  | _ => none

/-- The coupler's first sample comes I ticks after START (R1). -/
theorem test_start_first_sample : after .start (held fitted 3 []) (fun t => t.e1.nextSample) = some (some 1000) := by
  decide +kernel
/-- A lone leader's slot count under the default period: (10000 − 40 − 20) / 100 above 64, so 64 (R69). -/
theorem test_lone_leader_slots : after .listenTimeout listening (fun t => t.slots) = some 64 := by decide +kernel
/-- The mark after a disarm carries STEADY: an item that waits may not start before it, and may after it (R133). -/
theorem test_steady_mark_after_disarm :
    let s : State := { arming .armed sp1 with pet := { (arming .armed sp1).pet with work := [.brk 5 .e2 .line none false] } }
    after .armedTimeout s (fun t => (t.mayStart, (after .generatedCycleStart t fun u =>
        (u.timer.latched.map MarkFields.procedure, u.mayStart.isSome)))) = some (none, some (some .steady, true)) := by
  decide +kernel
/-- A member that takes the fast path has been an ORPHAN at that start: its outer end is QUIET (R15, R144). -/
theorem test_fast_path_rests_detection :
    let s : State := { onEnd outerMember .e2 seen with
      timer := missing2.timer, form := { outerMember.form with fastPath := some none } }
    after .orphanEntry s (fun t => (t.form.node, t.e2.phase)) = some (.lead, .quiet) := by decide +kernel
/-- The period is kept over a seek timeout (R42). -/
theorem test_seek_timeout_keeps_period :
    let s : State := { seeking false with timer := { (seeking false).timer with period := some 5000 } }
    after .seekDeadlineOrphan s (fun t => (t.form.node, t.timer.period)) = some (.orphan, some 5000) := by decide +kernel
/-- Armed tables count under the working epoch + 1 only (R63). -/
theorem test_armed_complete : armedMember.armedComplete = true
    ∧ ({ armedMember with form := { armedMember.form with armedA := some tab2 } } : State).armedComplete = false
    ∧ ({ armedMember with timer := { armedMember.timer with followed := some (7, 2) } } : State).armedComplete = false := by
  decide +kernel
/-- The sticky flags go out in R180's order: LINE_ERRORS of E1 first, EVENTS_LOST last. -/
theorem test_flag_order :
    ({ StickyFlags.clear with lineErrors1 := true } : StickyFlags).octets = [1, 0, 0, 0, 0, 0] := by decide +kernel
/-- The switch mark takes the size of the pending table (R58). -/
theorem test_switch_size : after .switchMark announcing (fun t => t.timer.latched.map MarkFields.n) = some (some 1) := by
  decide +kernel
/-- A second applicant cell of one round, its cycle's mark sent again, takes no second ENROLL (R122). -/
theorem test_one_enroll_in_a_round :
    let cell := fun (a : ApplicantRecord) => ({ applying with
      form := { applying.form with applicant := some a }
      timer := { member.timer with nextSlot := 4, counter := 400, round := 5, index := 0 } } : State)
    after .cellStart (cell enrollReady) (fun t => (t.e1.sending.isSome, t.form.applicant.bind ApplicantRecord.sentRound))
        = some (true, some 5)
      ∧ after .cellStart (cell { enrollReady with sentRound := some 5 }) (fun t => t.e1.sending.isSome) = some false := by
  decide +kernel
/-- An attempt number of 15 is followed by 0 (R122). -/
theorem test_attempt_wraps :
    after .enrollAttemptAdvance applying (fun t => t.form.applicant.map ApplicantRecord.attempt) = some (some 0) := by
  decide +kernel
/-- A good record is relayed with its hop raised from 0 to 1 (R10). -/
theorem test_relay_raises_hop :
    after (.petitionRecordReceived 0 .e1 petOs) fitted (fun t => t.e2.coming.map fun p => recordHop p.2.octets)
      = some (some 1) := by decide +kernel
/-- An unpowered part passes a record with its hop unchanged (R8). -/
theorem test_passive_keeps_hop :
    after (.petitionRecordReceived 0 .e1 petOs) { fitted with powered := false }
      (fun t => t.e2.sending.map fun p => p.record.octets) = some (some petOs) := by decide +kernel

/-- Hypotheses of the three frame statements: a cell start from rest, and the queue's rest it leaves. -/
theorem test_witness_frame_of_events :
    AtRest member ∧ ofLinesAndClock .cellStart = true ∧ betweenStarts .cellStart = true ∧ changesSense .cellStart = false
      ∧ after .cellStart { member with pending := [.windowOpens] } (fun t => t.pending) = some [.windowOpens] := by
  decide +kernel

end Sys2Proof.Tests
end

section
/-! PROOFS. Reading the stored settings (R164 to R166). -/

namespace Sys2Proof.Machine

open Sys2Proof

theorem exec_settingsRead (s : State) : exec .settingsRead s = execSettingsRead s := rfl

/-- While a store operation runs, nothing is read (R165). -/
theorem settingsRead_busy {s : State} {f : Frame} {q : AreaId × Bool} (h : Ready s f reqSettingsRead)
    (hq : parseSettingsRead f.body = some q) (hop : s.store.op ≠ none) :
    exec .settingsRead s = .next (s.replied f .busy .empty) := by
  have hsome : s.store.op.isSome = true := Option.isSome_iff_ne_none.mpr hop
  rw [exec_settingsRead, execSettingsRead, serve_ready _ h hq, if_pos hsome, finish_reply_self h]

/-- Settles O31: a running store operation is answered BUSY; else the reply is read by area and source. The values of a
stored area are those of `readProtect`, `readIdentity` and `readService`, which the statement writes out (R164). -/
theorem settingsReadReplies : Obligations.SettingsReadReplies := by
  intro s f a snap h hq
  refine ⟨settingsRead_busy h hq, fun hop => ?_⟩
  have hnone : ¬ s.store.op.isSome = true := by simp [hop]
  rw [exec_settingsRead, execSettingsRead, serve_ready _ h hq, if_neg hnone, finish_reply_self h]
  cases a with
  | identity =>
    cases snap with
    | false => simp only [Store.readProtect, Store.readIdentity]
    | true => rfl
  | service =>
    cases snap with
    | false => simp only [Store.readProtect, Store.readService]
    | true => rfl

end Sys2Proof.Machine
end

section
/-! PROOFS. Identifying the part (R178). -/

namespace Sys2Proof.Machine

open Sys2Proof

theorem exec_identify (s : State) : exec .identify s = execIdentify s := rfl

/-- An empty body is laid out rightly for a request without contents (R177). -/
theorem parseNothing_of_eq_nil {b : List Octet} (hb : b = []) : parseNothing b = some () := if_pos hb

/-- A field of the stored identity reads only while the area is good (R164). -/
theorem Store.readIdentity_map {α : Type} (st : Store) (g : Identity → α) :
    st.readIdentity.map g = if st.identity.good then some (g st.identity.contents) else none := by
  rw [Store.readIdentity, apply_ite (Option.map g), Option.map_some, Option.map_none]

/-- Settles O18: serving IDENTIFY tests neither the node state nor the store operation, and its step is the reply alone,
so every state in which the frame is ready ends with the reply made and nothing else changed (R178). -/
theorem identifyReplies : Obligations.IdentifyReplies := by
  intro s f h hb
  rw [exec_identify, execIdentify, serve_ready _ h (parseNothing_of_eq_nil hb), finish_reply_self h,
    Store.readIdentity_map]

end Sys2Proof.Machine
end

section
/-! PROOFS. What a command can do: it leaves the state, or it does some work and ends as a step, or it reaches an
unpowered part, or it puts every block at its power-on values. The frame statements are read off this. -/

namespace Sys2Proof.Machine

open Sys2Proof

/-- What the work of a command leaves of the state it begins in, before the step ends. -/
structure Work (c : Instr) (s x : State) : Prop where
  pending : x.pending = s.pending
  bounded : BuffersBounded s → BuffersBounded x
  sense : changesSense c = false → ∀ e, (x.endUnit e).sense = (s.endUnit e).sense
  spared : ofLinesAndClock c = true → x.spared = s.spared ∧ x.link.tx = s.link.tx
  footing : betweenStarts c = true → x.footing = s.footing

/-- The states a command can answer. -/
inductive Answers (c : Instr) (s : State) : State → Prop
  | unchanged : Answers c s s
  | settled (b x : State) (h : Work c s x) : Answers c s (State.settle b x)
  | passedOn (k : Nat) (e : EndId) (os : List Octet) : Answers c s (State.passive k e os s)
  | poweredUp (p : Bool) (n : Nat) (st : Store) (hs : changesSense c = true) (hl : ofLinesAndClock c = false)
      (hb : betweenStarts c = false) : Answers c s (State.powerOnValues p n st s.pending)

/-- A result is a next state that the command can answer. -/
def Goes (c : Instr) (s : State) (r : Result) : Prop := ∃ t, r = .next t ∧ Answers c s t

/-! ## Work -/

theorem sense_of_shell {s x : State} (h : x.shell = s.shell) (e : EndId) :
    (x.endUnit e).sense = (s.endUnit e).sense := by
  cases e
  · exact congrArg Shell.sense1 h
  · exact congrArg Shell.sense2 h

/-- Work that leaves the shell need only be asked for the footing. -/
theorem Work.of_shell {c : Instr} {s x : State} (h : x.shell = s.shell)
    (hf : betweenStarts c = true → x.footing = s.footing) : Work c s x where
  pending := congrArg (fun p => p.spared.pending) h
  bounded := bounded_of_shell h
  sense _ := sense_of_shell h
  spared _ := ⟨congrArg Shell.spared h, congrArg Shell.tx h⟩
  footing := hf

/-- Work that changes only the footing of a command that is free to. -/
theorem Work.of_start {c : Instr} {s x : State} (h : x.shell = s.shell) (hb : betweenStarts c = false) : Work c s x :=
  .of_shell h fun hc => by rw [hb] at hc; cases hc

/-- Work of the car link, which is no command of the lines and the clock. -/
theorem Work.of_link {c : Instr} {s x : State} (h : x = { s with link := x.link })
    (hh : s.link.holding.length ≤ 4 → x.link.holding.length ≤ 4) (hl : ofLinesAndClock c = false) : Work c s x where
  pending := by rw [h]
  bounded := by rw [h]; exact fun hs => ⟨hh hs.1, hs.2⟩
  sense _ e := by rw [h]; cases e <;> rfl
  spared hc := by rw [hl] at hc; cases hc
  footing _ := by rw [h]; rfl

/-- A reply made on top of a request's work. -/
theorem Work.reply {c : Instr} {s x : State} (h : Work c s x) (hl : ofLinesAndClock c = false) (f : Frame) (o : Outcome)
    (b : ReplyBody) : Work c s (x.reply f o b) where
  pending := h.pending
  bounded := h.bounded
  sense hc e := (by cases e <;> rfl : ((x.reply f o b).endUnit e).sense = (x.endUnit e).sense).trans (h.sense hc e)
  spared hc := by rw [hl] at hc; cases hc
  footing hc := h.footing hc

theorem Work.self (c : Instr) (s : State) : Work c s s := .of_shell rfl fun _ => rfl

/-- A request that only replies. -/
theorem Work.replies {c : Instr} {s : State} (hl : ofLinesAndClock c = false) (f : Frame) (o : Outcome) (b : ReplyBody) :
    Work c s (s.reply f o b) := (Work.self c s).reply hl f o b

/-- A test between two kinds of work. -/
theorem Work.ite {c : Instr} {s x y : State} {p : Prop} [Decidable p] (hx : Work c s x) (hy : Work c s y) :
    Work c s (if p then x else y) := by
  split
  · exact hx
  · exact hy

theorem Work.trans {c : Instr} {s t x : State} (h : Work c s t) (k : Work c t x) : Work c s x where
  pending := k.pending.trans h.pending
  bounded hb := k.bounded (h.bounded hb)
  sense hc e := (k.sense hc e).trans (h.sense hc e)
  spared hc := ⟨(k.spared hc).1.trans (h.spared hc).1, (k.spared hc).2.trans (h.spared hc).2⟩
  footing hc := (k.footing hc).trans (h.footing hc)

/-- Time passing is no work of its own. -/
theorem Work.advance (c : Instr) (s : State) (k : Nat) : Work c s (s.advance k) :=
  .of_shell (s.advance_shell k) fun _ => s.advance_footing k

/-- Work on an end unit by a command that may change what it senses, but not, from the lines and the clock, its mode. -/
theorem Work.mapEnd {c : Instr} (s : State) (e : EndId) (g : EndUnit → EndUnit) (hs : changesSense c = true)
    (hm : ofLinesAndClock c = true → (g (s.endUnit e)).mode = (s.endUnit e).mode) : Work c s (s.mapEnd e g) where
  pending := s.mapEnd_pending e g
  bounded hb := by
    have hl := s.mapEnd_link e g
    have hc := s.mapEnd_chan e g
    exact ⟨hl ▸ hb.1, hc ▸ hb.2⟩
  sense hc := by rw [hs] at hc; cases hc
  spared hc := s.mapEnd_spared e g (hm hc)
  footing _ := s.mapEnd_footing e g

/-- Work of a request on the watch list, the notices or a staging copy. -/
theorem Work.of_chan {c : Instr} {s x : State} (h : x = { s with chan := x.chan, link := x.link })
    (hh : x.link.holding = s.link.holding) (hw : s.chan.watch.length ≤ 16 → x.chan.watch.length ≤ 16)
    (ho : x.chan.out.length = s.chan.out.length) (hi : x.chan.image = s.chan.image) (hv : x.chan.live = s.chan.live)
    (hl : ofLinesAndClock c = false) : Work c s x where
  pending := by rw [h]
  bounded hb := ⟨hh ▸ hb.1, hw hb.2.1, ho.trans hb.2.2⟩
  sense _ e := by rw [h]; cases e <;> rfl
  spared hc := by rw [hl] at hc; cases hc
  footing _ := by
    have hf : x.form = s.form := by rw [h]
    have hp : x.planner = s.planner := by rw [h]
    have ht : x.timer = s.timer := by rw [h]
    simp only [State.footing, hi, hv, hf, hp, ht]

/-! ## Results -/

theorem Goes.idle (c : Instr) (s : State) : Goes c s (.next s) := ⟨s, rfl, .unchanged⟩

theorem Goes.finish {c : Instr} {s x : State} (b : State) (h : Work c s x) : Goes c s (finish b x) :=
  ⟨_, rfl, .settled b x h⟩

theorem Goes.ite {c : Instr} {s : State} {p : Prop} [Decidable p] {r q : Result} (hr : Goes c s r) (hq : Goes c s q) :
    Goes c s (if p then r else q) := by
  split
  · exact hr
  · exact hq

theorem Goes.whenPowered {c : Instr} {s : State} {f : State → Result} (h : Goes c s (f s)) :
    Goes c s (whenPowered s f) := Goes.ite h (.idle c s)

theorem Goes.serve {α : Type} {c : Instr} {s : State} {k : Octet} {parse : List Octet → Option α}
    {judge : α → Frame → State → State} (hl : ofLinesAndClock c = false) (hj : ∀ a f, Work c s (judge a f s)) :
    Goes c s (serve k parse s judge) := by
  unfold Machine.serve
  split
  · exact .idle c s
  · split
    · exact .finish s (.replies hl _ _ _)
    · exact .finish s (hj _ _)

theorem Goes.leaderRow {c : Instr} {s : State} {row : LeadStart} {f : State → State} (hf : ∀ t, (f t).shell = t.shell)
    (hb : betweenStarts c = false) : Goes c s (leaderRow s row f) :=
  .whenPowered (.ite (.finish _ (.of_start ((hf _).trans (State.advanceTo_shell _ _)) hb)) (.idle c s))

theorem Goes.followerRow {c : Instr} {s : State} {row : FollowStart} {due : State → Nat} {f : State → State}
    (hf : ∀ t, (f t).shell = t.shell) (hb : betweenStarts c = false) : Goes c s (followerRow s row due f) :=
  .whenPowered (.ite (.finish _ (.of_start ((hf _).trans (State.advanceTo_shell _ _)) hb)) (.idle c s))

theorem Goes.receive {c : Instr} {s : State} {k : Nat} {e : EndId} {kind : Octet} {os : List Octet}
    {hand : Path → State → State} (hs : ∀ p t, (hand p t).shell = t.shell)
    (hf : betweenStarts c = true → ∀ p t, (hand p t).footing = t.footing) :
    Goes c s (receive k e kind os s hand) := by
  unfold Machine.receive
  refine .ite (.idle c s) (.ite ⟨_, rfl, .passedOn k e os⟩ (.finish _ (.of_shell ?_ fun hc => ?_)))
  · simp [hs]
  · simp [hf hc]

/-! ## The link's receive path -/

theorem State.holdFrame_only_link (s : State) (f : Frame) : s.holdFrame f = { s with link := (s.holdFrame f).link } := by
  unfold State.holdFrame; split <;> rfl

theorem State.holdFrame_bounded (s : State) (f : Frame) (h : s.link.holding.length ≤ 4) :
    (s.holdFrame f).link.holding.length ≤ 4 := by
  unfold State.holdFrame
  split
  · rename_i hlt
    simp only [List.length_append, List.length_singleton]
    exact hlt
  · exact h

theorem holdFrames_only_link (fs : List Frame) (s : State) :
    fs.foldl State.holdFrame s = { s with link := (fs.foldl State.holdFrame s).link } := by
  induction fs generalizing s with
  | nil => rfl
  | cons f fs ih =>
    rw [List.foldl_cons, ih (s.holdFrame f)]
    generalize (fs.foldl State.holdFrame (s.holdFrame f)).link = l
    rw [State.holdFrame_only_link]

theorem holdFrames_bounded (fs : List Frame) (s : State) (h : s.link.holding.length ≤ 4) :
    (fs.foldl State.holdFrame s).link.holding.length ≤ 4 := by
  induction fs generalizing s with
  | nil => exact h
  | cons f fs ih => exact ih _ (s.holdFrame_bounded f h)

/-- What a scan leaves of the state is the receive path and the holding. -/
theorem State.afterScan_only_link (s : State) (n : Nat) (r : Scan) :
    s.afterScan n r = { s with link := (s.afterScan n r).link } := by
  unfold State.afterScan
  exact holdFrames_only_link _ _

theorem Work.afterScan {c : Instr} {s t : State} (n : Nat) (r : Scan) (hl : ofLinesAndClock c = false)
    (hs : t.shell = s.shell) (hf : t.footing = s.footing) : Work c s (t.afterScan n r) :=
  .trans (.of_shell hs fun _ => hf)
    (.of_link (t.afterScan_only_link n r) (fun h => holdFrames_bounded _ _ h) hl)

/-! ## Requests -/

theorem Work.setMode (s : State) (e : EndId) (m : EndMode) : Work .setEndMode s (s.setMode e m) := by
  unfold State.setMode
  refine .ite (.self _ s) ?_
  have h := Work.mapEnd (c := .setEndMode) s e (EndUnit.withMode m) rfl fun hc => by cases hc
  exact .ite (h.trans (.of_shell (State.carrierEvent_shell _ _ _) fun _ => State.carrierEvent_footing _ _ _)) h

theorem Work.queueWant {c : Instr} (s : State) (w : Want) : Work c s (s.queueWant w) :=
  .of_shell (s.queueWant_shell w) fun _ => s.queueWant_footing w

theorem Work.queueJoint {c : Instr} (s : State) (k : WantKind) (p : Nat) (make : Nat → Tag → Tag → Want) :
    Work c s (s.queueJoint k p make) := by
  unfold State.queueJoint
  split
  · exact .queueWant s _
  · exact .of_shell rfl fun _ => rfl

theorem Work.beginOp {c : Instr} (s : State) (k : StoreOpKind) (x : StoreContents) (hl : ofLinesAndClock c = false) :
    Work c s (s.beginOp k x) where
  pending := rfl
  bounded := id
  sense _ e := by cases e <;> rfl
  spared hc := by rw [hl] at hc; cases hc
  footing _ := rfl

theorem Work.protect {c : Instr} (s : State) (f : Frame) (a : AreaId) (on : Bool) (hl : ofLinesAndClock c = false) :
    Work c s (s.protect f a on) := by
  unfold State.protect
  split
  · exact (Work.beginOp s _ _ hl).reply hl _ _ _
  · exact .replies hl _ _ _

/-- START and STOP leave the queue of commands, the holding, the watch list and the outbound channels. -/
theorem Work.of_restarted {c : Instr} {s x : State} (hp : x.pending = s.pending) (hh : x.link.holding = s.link.holding)
    (hw : x.chan.watch = s.chan.watch) (ho : x.chan.out = s.chan.out) (hs : changesSense c = true)
    (hl : ofLinesAndClock c = false) (hb : betweenStarts c = false) : Work c s x where
  pending := hp
  bounded h := ⟨hh ▸ h.1, hw ▸ h.2.1, ho ▸ h.2.2⟩
  sense hc := by rw [hs] at hc; cases hc
  spared hc := by rw [hl] at hc; cases hc
  footing hc := by rw [hb] at hc; cases hc

theorem goes_unknown (s : State) : Goes .unknown s (execUnknown s) := by
  unfold execUnknown
  split
  · exact .finish s (.replies rfl _ _ _)
  · exact .idle _ s

theorem goes_status (s : State) : Goes .status s (execStatus s) :=
  .serve rfl fun _ _ => .trans (.replies rfl _ _ _) (.of_link rfl id rfl)

theorem goes_start (s : State) : Goes .start s (execStart s) :=
  .serve rfl fun _ _ => .ite (.replies rfl _ _ _) (.ite (.replies rfl _ _ _) (.ite (.replies rfl _ _ _)
    (Work.reply (x := s.startUp) (Work.of_restarted (s := s) rfl rfl rfl rfl rfl rfl rfl) rfl _ _ _)))

theorem goes_stop (s : State) : Goes .stop s (execStop s) :=
  .serve rfl fun _ _ => .ite (.replies rfl _ _ _)
    (Work.reply (x := s.shutDown) (Work.of_restarted (s := s) rfl rfl rfl rfl rfl rfl rfl) rfl _ _ _)

theorem goes_publish (s : State) : Goes .publish s (execPublish s) :=
  .serve rfl fun a _ => .ite (.replies rfl _ _ _) (.reply (x := { s with chan := { s.chan with
      out := s.chan.out.set a.1 { s.outOf a.1 with staging := padded a.2, written := true } } })
    (.of_chan rfl rfl id (List.length_set ..) rfl rfl rfl) rfl _ _ _)

theorem goes_readImage (s : State) : Goes .readImage s (execReadImage s) :=
  .serve rfl fun _ _ => by
    refine .ite (.replies rfl _ _ _) ?_
    split <;> exact .replies rfl _ _ _

theorem goes_readTable (s : State) : Goes .readTable s (execReadTable s) :=
  .serve rfl fun _ _ => by
    refine .ite (.replies rfl _ _ _) ?_
    split
    · exact .replies rfl _ _ _
    · exact .ite (.replies rfl _ _ _) (.replies rfl _ _ _)

theorem goes_watch (s : State) : Goes .watch s (execWatch s) :=
  .serve rfl fun w f => by
    refine .ite (.replies rfl _ _ _) (.ite (.replies rfl _ _ _) ?_)
    split
    · exact .replies rfl _ _ _
    · rename_i hroom
      refine .reply (x := { s with chan := { s.chan with watch := s.chan.watch ++ [w] } })
        (.of_chan rfl rfl (fun _ => ?_) rfl rfl rfl rfl) rfl _ _ _
      have hlt : s.chan.watch.length < 16 := Nat.lt_of_not_le hroom
      simpa using hlt

theorem goes_unwatch (s : State) : Goes .unwatch s (execUnwatch s) :=
  .serve rfl fun w _ => .ite (.reply (x := { s with
      chan := { s.chan with watch := s.chan.watch.filter fun x => x != w }
      link := { s.link with notices := s.link.notices.filter fun n => n.body.changeOf != some w } })
    (.of_chan rfl rfl (fun h => (List.length_filter_le _ _).trans h) rfl rfl rfl rfl) rfl _ _ _) (.replies rfl _ _ _)

theorem goes_settingsWrite (s : State) : Goes .settingsWrite s (execSettingsWrite s) :=
  .serve rfl fun _ _ => by
    refine .ite (.replies rfl _ _ _) (.ite (.replies rfl _ _ _) ?_)
    split
    · refine .ite (.replies rfl _ _ _) ?_
      split
      · exact (Work.beginOp s _ _ rfl).reply rfl _ _ _
      · exact .replies rfl _ _ _
    · split
      · exact (Work.beginOp s _ _ rfl).reply rfl _ _ _
      · exact .replies rfl _ _ _

/-- A request for a want, with a joint or without. -/
theorem Work.wanted {c : Instr} {s x : State} {p q : Prop} [Decidable p] [Decidable q] {f : Frame} {o1 o2 o3 : Outcome} (hl : ofLinesAndClock c = false) (h : Work c s x) :
    Work c s (if p then s.reply f o1 .empty else if q then s.reply f o2 .empty else x.reply f o3 .empty) :=
  .ite (.replies hl _ _ _) (.ite (.replies hl _ _ _) (h.reply hl _ _ _))

/-! ## The other commands -/

theorem goes_storeOperationEnd (k : Nat) (s : State) : Goes (.storeOperationEnd k) s (execStoreOperationEnd k s) :=
  .whenPowered (by
    split
    · exact .finish _ (.trans (.advance _ s _) {
        pending := rfl, bounded := id, sense := fun _ e => (by cases e <;> rfl)
        spared := fun hc => (by cases hc), footing := fun _ => rfl })
    · exact .idle _ s)

theorem goes_contactSample (e : EndId) (closed : Bool) (s : State) :
    Goes (.contactSample e closed) s (execContactSample e closed s) :=
  .whenPowered (by
    split
    · exact .idle _ s
    · rename_i n _
      have h := Work.trans (.advance (.contactSample e closed) s (n - s.now)) (.mapEnd _ e
        (fun _ => { (((s.advanceTo n).endUnit e).sample (s.advanceTo n).settings.qualifyCount closed).1 with
          nextSample := some (n + (s.advanceTo n).settings.sampleInterval) }) rfl fun _ => EndUnit.sample_mode _ _ _)
      exact .finish _ (.ite (h.trans (.of_shell (State.qualified_shell _ _ _) fun _ => State.qualified_footing _ _ _)) h))

theorem Work.carrierEvent {c : Instr} (s : State) (e : EndId) (x : CarrierState) : Work c s (s.carrierEvent e x) :=
  .of_shell (State.carrierEvent_shell _ _ _) fun _ => State.carrierEvent_footing _ _ _

theorem goes_carrierChange (k : Nat) (e : EndId) (s : State) : Goes (.carrierChange k e) s (execCarrierChange k e s) :=
  .whenPowered (.ite (.idle _ s) (by
    split
    · exact .finish _ (((Work.advance _ s k).trans (.mapEnd _ e _ rfl fun _ => rfl)).trans (.carrierEvent _ e _))
    · exact .finish _ (((Work.advance _ s k).trans (.mapEnd _ e _ rfl fun _ => rfl)).trans (.carrierEvent _ e _))))

theorem goes_badRecordReceived (k : Nat) (e : EndId) (os : List Octet) (s : State) :
    Goes (.badRecordReceived k e os) s (execBadRecordReceived k e os s) := by
  refine .ite (.idle _ s) (.ite ⟨_, rfl, .passedOn k e os⟩ (.ite (.finish _ (.of_shell ?_ fun _ => ?_))
    (.finish _ (.of_shell ?_ fun _ => ?_))))
  all_goals simp

theorem goes_silenceLimit (s : State) : Goes .silenceLimit s (execSilenceLimit s) :=
  .whenPowered (by
    split
    · dsimp only
      split
      · rename_i hp
        have hs := State.place_shell hp
        have hf := State.place_footing hp
        exact .finish _ (.of_shell hs fun _ => hf)
      · exact .finish _ (.of_shell rfl fun _ => rfl)
    · exact .idle _ s)

/-- A command that waits for an instant and then does what keeps shell and footing. -/
theorem Goes.timed {c : Instr} {s x : State} (k : Nat) (hs : x.shell = (s.advance k).shell)
    (hf : betweenStarts c = true → x.footing = (s.advance k).footing) : Goes c s (Machine.finish (s.advance k) x) :=
  .finish _ (.trans (.advance c s k) (.of_shell hs hf))

/-- Every command answers a next state, and one of these. -/
theorem exec_goes (c : Instr) (s : State) : Goes c s (exec c s) := by
  cases c with
  | powerOn =>
    show Goes _ s (execPowerOn s)
    unfold execPowerOn
    exact ⟨_, rfl, .poweredUp _ _ _ rfl rfl rfl⟩
  | powerLoss k =>
    show Goes _ s (execPowerLoss k s)
    unfold execPowerLoss
    exact .whenPowered ⟨_, rfl, .poweredUp _ _ _ rfl rfl rfl⟩
  | restartTakesEffect k =>
    show Goes _ s (execRestartTakesEffect k s)
    unfold execRestartTakesEffect
    exact .whenPowered (.ite ⟨_, rfl, .poweredUp _ _ _ rfl rfl rfl⟩ (.idle _ s))
  | frameReceived k os =>
    show Goes _ s (execFrameReceived k os s)
    unfold execFrameReceived
    exact .whenPowered (.ite (.idle _ s) (.finish _ (.afterScan _ _ rfl (s.advance_shell k) (s.advance_footing k))))
  | frameDropped k os =>
    show Goes _ s (execFrameDropped k os s)
    unfold execFrameDropped
    exact .whenPowered (.ite (.idle _ s) (.finish _ (.afterScan _ _ rfl (s.advance_shell k) (s.advance_footing k))))
  | frameTimeout k os =>
    show Goes _ s (execFrameTimeout k os s)
    unfold execFrameTimeout
    exact .whenPowered (.ite (.idle _ s) (.finish _ (.afterScan _ _ rfl (s.advanceTo_shell _) (s.advanceTo_footing _))))
  | transmitFrameEnd k =>
    show Goes _ s (execTransmitFrameEnd k s)
    unfold execTransmitFrameEnd
    exact .whenPowered (.ite (.idle _ s) (.finish _ (.trans (.advance _ s k) (.of_link rfl id rfl))))
  | unknown => exact goes_unknown s
  | identify =>
    show Goes _ s (execIdentify s)
    unfold execIdentify
    exact .serve rfl fun _ _ => .replies rfl _ _ _
  | status => exact goes_status s
  | start => exact goes_start s
  | stop => exact goes_stop s
  | restart =>
    show Goes _ s (execRestart s)
    unfold execRestart
    exact .serve rfl fun _ _ => .of_link rfl id rfl
  | setEndMode =>
    show Goes _ s (execSetEndMode s)
    unfold execSetEndMode
    exact .serve rfl fun _ _ => .reply (.setMode s _ _) rfl _ _ _
  | publish => exact goes_publish s
  | readImage => exact goes_readImage s
  | readTable => exact goes_readTable s
  | watch => exact goes_watch s
  | unwatch => exact goes_unwatch s
  | split =>
    show Goes _ s (execSplit s)
    unfold execSplit
    exact .serve rfl fun _ _ => .wanted rfl (.queueJoint s _ _ _)
  | splitCancel =>
    show Goes _ s (execSplitCancel s)
    unfold execSplitCancel
    exact .serve rfl fun _ _ => .wanted rfl (.queueJoint s _ _ _)
  | cabClaim =>
    show Goes _ s (execCabClaim s)
    unfold execCabClaim
    exact .serve rfl fun _ _ => .ite (.replies rfl _ _ _) (.reply (.queueWant s _) rfl _ _ _)
  | cabRelease =>
    show Goes _ s (execCabRelease s)
    unfold execCabRelease
    exact .serve rfl fun _ _ => .ite (.replies rfl _ _ _) (.reply (.queueWant s _) rfl _ _ _)
  | heading =>
    show Goes _ s (execHeading s)
    unfold execHeading
    exact .serve rfl fun _ _ => .ite (.replies rfl _ _ _) (.reply (.queueWant s _) rfl _ _ _)
  | settingsRead =>
    show Goes _ s (execSettingsRead s)
    unfold execSettingsRead
    exact .serve rfl fun _ _ => .ite (.replies rfl _ _ _) (.replies rfl _ _ _)
  | settingsWrite => exact goes_settingsWrite s
  | settingsProtect =>
    show Goes _ s (execSettingsProtect s)
    unfold execSettingsProtect
    exact .serve rfl fun _ _ => .ite (.replies rfl _ _ _) (.ite (.replies rfl _ _ _) (.ite (.protect s _ _ _ rfl)
      (.ite (.protect s _ _ _ rfl) (.replies rfl _ _ _))))
  | storeOperationEnd k => exact goes_storeOperationEnd k s
  | contactSample e closed => exact goes_contactSample e closed s
  | carrierChange k e => exact goes_carrierChange k e s
  | markReceived k e os =>
    show Goes _ s (execMarkReceived k e os s)
    unfold execMarkReceived
    exact .receive (fun _ _ => State.handMark_shell _ _ _ _) fun hc => by cases hc
  | rollRecordReceived k e os =>
    show Goes _ s (execRollRecordReceived k e os s)
    unfold execRollRecordReceived
    exact .receive (fun _ _ => State.handRoll_shell _ _ _ _) fun hc => by cases hc
  | petitionRecordReceived k e os =>
    show Goes _ s (execPetitionRecordReceived k e os s)
    unfold execPetitionRecordReceived
    exact .receive (fun _ _ => State.handPetition_shell _ _ _ _) fun _ _ _ => State.handPetition_footing _ _ _ _
  | channelRecordReceived k e os =>
    show Goes _ s (execChannelRecordReceived k e os s)
    unfold execChannelRecordReceived
    exact .receive (fun _ _ => State.handChannel_shell _ _ _ _) fun hc => by cases hc
  | badRecordReceived k e os => exact goes_badRecordReceived k e os s
  | foreignMarkTimeout e =>
    show Goes _ s (execForeignMarkTimeout e s)
    unfold execForeignMarkTimeout
    refine .whenPowered ?_
    split
    · exact .ite (.timed _ (State.foreignSilence_shell _ _) fun _ => State.foreignSilence_footing _ _) (.idle _ s)
    · exact .idle _ s
  | foreignQuietTimeout e =>
    show Goes _ s (execForeignQuietTimeout e s)
    unfold execForeignQuietTimeout
    refine .whenPowered ?_
    split
    · exact .ite (.timed _ (State.foreignQuiet_shell _ _) fun _ => State.foreignQuiet_footing _ _) (.idle _ s)
    · exact .idle _ s
  | waitingRecordSent e =>
    show Goes _ s (execWaitingRecordSent e s)
    unfold execWaitingRecordSent
    refine .whenPowered ?_
    split
    · exact .timed _ rfl fun _ => rfl
    · exact .idle _ s
  | generatedCycleStart =>
    show Goes _ s (execGeneratedCycleStart s)
    unfold execGeneratedCycleStart
    exact .leaderRow State.generate_shell rfl
  | switchMark =>
    show Goes _ s (execSwitchMark s)
    unfold execSwitchMark
    exact .leaderRow State.switchTo_shell rfl
  | armedReached =>
    show Goes _ s (execArmedReached s)
    unfold execArmedReached
    exact .leaderRow State.reachArmed_shell rfl
  | splitSwitch =>
    show Goes _ s (execSplitSwitch s)
    unfold execSplitSwitch
    exact .leaderRow State.switchSplit_shell rfl
  | yieldEnd =>
    show Goes _ s (execYieldEnd s)
    unfold execYieldEnd
    exact .leaderRow State.yieldLead_shell rfl
  | principalJoinDeadline =>
    show Goes _ s (execPrincipalJoinDeadline s)
    unfold execPrincipalJoinDeadline
    exact .leaderRow State.abandonJoin_shell rfl
  | absorbedJoinDeadline =>
    show Goes _ s (execAbsorbedJoinDeadline s)
    unfold execAbsorbedJoinDeadline
    exact .leaderRow State.abandonJoin_shell rfl
  | firstGeneratedMark =>
    show Goes _ s (execFirstGeneratedMark s)
    unfold execFirstGeneratedMark
    refine .whenPowered ?_
    split
    · exact .timed _ (State.firstMark_shell _ _) fun hc => by cases hc
    · exact .idle _ s
  | listenTimeout =>
    show Goes _ s (execListenTimeout s)
    unfold execListenTimeout
    exact .whenPowered (.ite (.timed _ (State.leadAlone_shell _) fun hc => by cases hc) (.idle _ s))
  | armedTimeout =>
    show Goes _ s (execArmedTimeout s)
    unfold execArmedTimeout
    refine .whenPowered ?_
    split
    · exact .ite (.timed _ (State.disarm_shell _ _ _) fun _ => State.disarm_footing _ _ _) (.idle _ s)
    · exact .idle _ s
  | silenceLimit => exact goes_silenceLimit s
  | workItemStart =>
    show Goes _ s (execWorkItemStart s)
    unfold execWorkItemStart
    refine .whenPowered ?_
    split
    · exact .finish _ (.of_shell (State.startItem_shell _ _) fun _ => State.startItem_footing _ _)
    · exact .idle _ s
  | cellStart =>
    show Goes _ s (execCellStart s)
    unfold execCellStart
    exact .whenPowered (.ite (.timed _ (State.startCell_shell _ _) fun _ => State.startCell_footing _ _) (.idle _ s))
  | flywheelStart =>
    show Goes _ s (execFlywheelStart s)
    unfold execFlywheelStart
    exact .followerRow State.flywheelStart_shell rfl
  | orphanEntry =>
    show Goes _ s (execOrphanEntry s)
    unfold execOrphanEntry
    exact .followerRow State.enterOrphan_shell rfl
  | yieldSeekEntry =>
    show Goes _ s (execYieldSeekEntry s)
    unfold execYieldSeekEntry
    exact .followerRow State.yieldMember_shell rfl
  | coastingStart =>
    show Goes _ s (execCoastingStart s)
    unfold execCoastingStart
    exact .followerRow State.coast_shell rfl
  | succession =>
    show Goes _ s (execSuccession s)
    unfold execSuccession
    exact .followerRow State.takeSuccession_shell rfl
  | windowOpens =>
    show Goes _ s (execWindowOpens s)
    unfold execWindowOpens
    exact .whenPowered (.ite (.timed _ rfl fun _ => rfl) (.idle _ s))
  | seekDeadlineResume =>
    show Goes _ s (execSeekDeadlineResume s)
    unfold execSeekDeadlineResume
    refine .whenPowered ?_
    split
    · exact .ite (.timed _ (State.resumeLead_shell _ _) fun hc => by cases hc) (.idle _ s)
    · exact .idle _ s
  | seekDeadlineOrphan =>
    show Goes _ s (execSeekDeadlineOrphan s)
    unfold execSeekDeadlineOrphan
    refine .whenPowered ?_
    split
    · exact .ite (.timed _ (State.orphanAgain_shell _ _) fun hc => by cases hc) (.idle _ s)
    · exact .idle _ s
  | enrollAttemptAdvance =>
    show Goes _ s (execEnrollAttemptAdvance s)
    unfold execEnrollAttemptAdvance
    refine .whenPowered ?_
    split
    · exact .ite (.finish _ (.of_shell (State.mapApplicant_shell _ _) fun _ => State.mapApplicant_footing _ _)) (.idle _ s)
    · exact .idle _ s

/-- Of every command: what it answers is one of these. -/
theorem answers_of_exec {c : Instr} {s t : State} (h : exec c s = .next t) : Answers c s t := by
  obtain ⟨u, hu, ha⟩ := exec_goes c s
  obtain rfl : t = u := by rw [h] at hu; injection hu
  exact ha

/-! ## The frame statements -/

theorem Answers.pending {c : Instr} {s t : State} (h : Answers c s t) : t.pending = s.pending := by
  cases h with
  | unchanged => rfl
  | settled b x h => exact (settle_pending b x).trans h.pending
  | passedOn k e os => exact congrArg (fun p => p.spared.pending) (State.passive_shell k e os s)
  | poweredUp p n st hs hl hb => rfl

/-- Settles O2: every command's answer is one of four kinds, none of which touches the queue. -/
theorem commandsGoOnAndKeepTheQueue : Obligations.CommandsGoOnAndKeepTheQueue := by
  intro c s
  obtain ⟨t, ht, ha⟩ := exec_goes c s
  exact ⟨t, ht, ha.pending⟩

/-- States that agree in outbox and car link are at rest together. -/
theorem AtRest.congr {s t : State} (ho : t.outbox = s.outbox) (hl : t.link = s.link) (h : AtRest s) : AtRest t := by
  unfold AtRest
  rw [ho, hl]
  exact h

theorem State.passive_outbox (k : Nat) (e : EndId) (os : List Octet) (s : State) :
    (State.passive k e os s).outbox = s.outbox := by simp [State.passive]

theorem State.passive_link (k : Nat) (e : EndId) (os : List Octet) (s : State) :
    (State.passive k e os s).link = s.link := by simp [State.passive]

/-- Commands keep the link at rest: a step that did anything ends with the next frame begun (R176). -/
theorem Answers.atRest {c : Instr} {s t : State} (h : Answers c s t) (hs : AtRest s) : AtRest t := by
  cases h with
  | unchanged => exact hs
  | settled b x h => exact settle_atRest b x
  | passedOn k e os => exact hs.congr (State.passive_outbox k e os s) (State.passive_link k e os s)
  | poweredUp p n st hs hl hb => exact ⟨rfl, fun _ => ⟨rfl, .inl rfl⟩⟩

theorem Answers.bounded {c : Instr} {s t : State} (h : Answers c s t) (hs : BuffersBounded s) : BuffersBounded t := by
  cases h with
  | unchanged => exact hs
  | settled b x h => exact settle_bounded (h.bounded hs)
  | passedOn k e os => exact bounded_of_shell (State.passive_shell k e os s) hs
  | poweredUp p n st hs hl hb => exact ⟨Nat.zero_le _, Nat.zero_le _, rfl⟩

/-- A property that ticks keep, that does not look at the queue, and that every command keeps, is kept by every step. -/
theorem step_keeps {P : State → Prop} (hq : ∀ s, P s → P s.dropFront) (ht : ∀ s, P s → P (s.advance 1))
    (hc : ∀ c s t, Answers c s t → P s → P t) {s t : State} (hs : P s) (h : step s = .next t) : P t := by
  unfold step at h
  split at h
  · injection h with h
    exact h ▸ ht s hs
  · exact hc _ _ _ (answers_of_exec h) (hq s hs)

/-- Settles O3: ticks leave the link alone, and every command ends with the next frame begun. -/
theorem linkRestKept : Obligations.LinkRestKept := fun _ _ hs h =>
  step_keeps (P := fun s => AtRest s) (fun _ hr => hr.congr rfl rfl)
    (fun s hr => hr.congr (s.advance_outbox 1) (s.advance_link 1)) (fun _ _ _ ha => ha.atRest) hs h

/-- Settles O7: the holding grows only below four frames, the watch list only below sixteen entries. -/
theorem buffersStayBounded : Obligations.BuffersStayBounded := fun _ _ hs h =>
  step_keeps (P := fun s => BuffersBounded s) (fun _ hb => hb)
    (fun s hb => bounded_of_shell (s.advance_shell 1) hb) (fun _ _ _ ha => ha.bounded) hs h

/-- Settles O4: the commands of the lines and the clock work on other parts, and from rest no reply waits that the end of
the step could begin. -/
theorem linesAndClockSpareTheRest : Obligations.LinesAndClockSpareTheRest := by
  intro c s t hc hs h
  cases answers_of_exec h with
  | unchanged => rfl
  | settled b x hx => exact finish_spared hs (hx.spared hc).1 (hx.spared hc).2 rfl
  | passedOn k e os => exact congrArg Shell.spared (State.passive_shell k e os s)
  | poweredUp p n st hs hl hb => rw [hl] at hc; cases hc

/-- Settles O5. -/
theorem footingStandsBetweenStarts : Obligations.FootingStandsBetweenStarts := by
  intro c s t hc h
  cases answers_of_exec h with
  | unchanged => rfl
  | settled b x hx => exact (settle_footing b x).trans (hx.footing hc)
  | passedOn k e os => exact State.passive_footing k e os s
  | poweredUp p n st hs hl hb => rw [hb] at hc; cases hc

/-- Settles O6. -/
theorem endsSenseByTheirOwnCommands : Obligations.EndsSenseByTheirOwnCommands := by
  intro c s t e hc h
  cases answers_of_exec h with
  | unchanged => rfl
  | settled b x hx => exact (settle_sense b x e).trans (hx.sense hc e)
  | passedOn k e' os => exact sense_of_shell (State.passive_shell k e' os s) e
  | poweredUp p n st hs hl hb => rw [hs] at hc; cases hc

/-- Settles O1: the front command is dropped from the queue and runs. -/
theorem stepRunsFrontCommand : Obligations.StepRunsFrontCommand := fun _ _ _ => rfl

end Sys2Proof.Machine
end

section
/-! PROOFS. How a step ends, field by field: only the end units, the car link and the outbox are touched. -/

namespace Sys2Proof.Machine

open Sys2Proof

/-! ## What the end of a step leaves -/

/-- A state without its end units, its car link and its outbox. -/
def State.interior (s : State) : State := { s with e1 := .initial, e2 := .initial, link := .initial false, outbox := [] }

theorem State.mapEnd_interior (s : State) (e : EndId) (g : EndUnit → EndUnit) : (s.mapEnd e g).interior = s.interior := by
  cases e <;> rfl

theorem State.restDetection_interior (b s : State) : (State.restDetection b s).interior = s.interior := by
  unfold State.restDetection
  exact (State.mapEnd_interior _ _ _).trans (State.mapEnd_interior _ _ _)

/-- The transmit paths follow the condition of one end. -/
def State.reconditionEnd (b x : State) (e : EndId) : State :=
  if b.condition e = x.condition e then x
  else (x.mapEnd e (EndUnit.cutOff x.now (x.condition e))).mapEnd e.other (EndUnit.cutSource x.now)

theorem State.recondition_eq (b s : State) :
    State.recondition b s = State.reconditionEnd b (State.reconditionEnd b s .e1) .e2 := rfl

theorem State.reconditionEnd_interior (b x : State) (e : EndId) : (State.reconditionEnd b x e).interior = x.interior := by
  unfold State.reconditionEnd
  split
  · rfl
  · exact (State.mapEnd_interior _ _ _).trans (State.mapEnd_interior _ _ _)

theorem State.recondition_interior (b s : State) : (State.recondition b s).interior = s.interior :=
  (State.reconditionEnd_interior _ _ _).trans (State.reconditionEnd_interior _ _ _)

/-- However a step ends, the blocks other than the end units and the car link stay as its work left them. -/
theorem settle_interior (b s : State) : (State.settle b s).interior = s.interior := by
  unfold State.settle
  rw [State.beginFrame_only_link, State.flushNotices_only]
  exact (State.recondition_interior _ _).trans (State.restDetection_interior _ _)

@[simp] theorem settle_powered (b s : State) : (State.settle b s).powered = s.powered := (congrArg State.powered (settle_interior b s) :)
@[simp] theorem settle_now (b s : State) : (State.settle b s).now = s.now := (congrArg State.now (settle_interior b s) :)
@[simp] theorem settle_timer (b s : State) : (State.settle b s).timer = s.timer := (congrArg State.timer (settle_interior b s) :)
@[simp] theorem settle_form (b s : State) : (State.settle b s).form = s.form := (congrArg State.form (settle_interior b s) :)
@[simp] theorem settle_planner (b s : State) : (State.settle b s).planner = s.planner := (congrArg State.planner (settle_interior b s) :)
@[simp] theorem settle_pet (b s : State) : (State.settle b s).pet = s.pet := (congrArg State.pet (settle_interior b s) :)
@[simp] theorem settle_chan (b s : State) : (State.settle b s).chan = s.chan := (congrArg State.chan (settle_interior b s) :)
@[simp] theorem settle_store (b s : State) : (State.settle b s).store = s.store := (congrArg State.store (settle_interior b s) :)

/-! ## End units at the end of a step -/

/-- An end unit without its transmitter. -/
def EndUnit.receiver (u : EndUnit) : EndUnit := { u with sending := none, waiting := none, coming := none }

theorem EndUnit.keepRecords_receiver (now : Nat) (p : TxProgress → Bool) (q : TxRecord → Bool) (u : EndUnit) :
    (u.keepRecords now p q).receiver = u.receiver := by
  unfold EndUnit.keepRecords
  dsimp only
  split
  · split <;> rfl
  · rfl

theorem State.endUnit_mapEnd_receiver (s : State) (e e' : EndId) (g : EndUnit → EndUnit)
    (h : (g (s.endUnit e)).receiver = (s.endUnit e).receiver) :
    ((s.mapEnd e g).endUnit e').receiver = (s.endUnit e').receiver := by
  cases e <;> cases e' <;> first | exact h | rfl

theorem State.reconditionEnd_receiver (b x : State) (e e' : EndId) :
    ((State.reconditionEnd b x e').endUnit e).receiver = (x.endUnit e).receiver := by
  unfold State.reconditionEnd
  split
  · rfl
  · exact (State.endUnit_mapEnd_receiver _ _ _ _ (EndUnit.keepRecords_receiver _ _ _ _)).trans
      (State.endUnit_mapEnd_receiver _ _ _ _ (EndUnit.keepRecords_receiver _ _ _ _))

theorem State.recondition_receiver (b s : State) (e : EndId) :
    ((State.recondition b s).endUnit e).receiver = (s.endUnit e).receiver :=
  (State.reconditionEnd_receiver _ _ _ _).trans (State.reconditionEnd_receiver _ _ _ _)

theorem State.detectable_mapEnd_other (s : State) (e : EndId) (g : EndUnit → EndUnit) :
    (s.mapEnd e g).detectable e.other = s.detectable e.other := by cases e <;> rfl

theorem State.endUnit_restDetection (b s : State) (e : EndId) : (State.restDetection b s).endUnit e =
    (s.endUnit e).rest (b.detectable e && !s.detectable e) (b.outermost e && !s.outermost e) := by
  have h1 : ∀ g, (s.mapEnd .e1 g).detectable .e2 = s.detectable .e2 := fun g => s.detectable_mapEnd_other .e1 g
  have h2 : ∀ g, (s.mapEnd .e1 g).outermost .e2 = s.outermost .e2 := fun g => rfl
  unfold State.restDetection
  cases e
  · rfl
  · simp only [h1, h2, State.endUnit_mapEnd]
    rfl

theorem State.flushNotices_endUnit (s : State) (e : EndId) : s.flushNotices.endUnit e = s.endUnit e := by
  rw [State.flushNotices_only]; cases e <;> rfl

theorem State.beginFrame_endUnit (s : State) (e : EndId) : s.beginFrame.endUnit e = s.endUnit e := by
  rw [State.beginFrame_only_link]; cases e <;> rfl

theorem settle_endUnit (b s : State) (e : EndId) :
    (State.settle b s).endUnit e = (State.recondition b (State.restDetection b s)).endUnit e := by
  unfold State.settle
  rw [State.beginFrame_endUnit, State.flushNotices_endUnit]

/-- But for its transmitter an end unit ends a step as its work left it, detection resting where it must (R15, R118). -/
theorem settle_receiver (b s : State) (e : EndId) : ((State.settle b s).endUnit e).receiver =
    ((s.endUnit e).rest (b.detectable e && !s.detectable e) (b.outermost e && !s.outermost e)).receiver := by
  rw [settle_endUnit, State.recondition_receiver, State.endUnit_restDetection]

/-- A part of an end unit that neither the transmitter nor resting detection touches. -/
theorem settle_end_field {α : Type} (p : EndUnit → α) (hr : ∀ u : EndUnit, p u.receiver = p u)
    (hq : ∀ u : EndUnit, p u.toQuiet = p u) (hj : ∀ u : EndUnit, p u.forgetJoin = p u) (b s : State) (e : EndId) :
    p ((State.settle b s).endUnit e) = p (s.endUnit e) := by
  have rest : ∀ (q g : Bool) (u : EndUnit), p (u.rest q g) = p u := by
    intro q g u
    cases q <;> cases g <;> simp [EndUnit.rest, hq, hj]
  rw [← hr, settle_receiver, hr, rest]

@[simp] theorem settle_contact (b s : State) (e : EndId) : ((State.settle b s).endUnit e).contact = (s.endUnit e).contact :=
  settle_end_field EndUnit.contact (fun _ => rfl) (fun _ => rfl) (fun _ => rfl) b s e
@[simp] theorem settle_filterCount (b s : State) (e : EndId) : ((State.settle b s).endUnit e).filterCount = (s.endUnit e).filterCount :=
  settle_end_field EndUnit.filterCount (fun _ => rfl) (fun _ => rfl) (fun _ => rfl) b s e
@[simp] theorem settle_nextSample (b s : State) (e : EndId) : ((State.settle b s).endUnit e).nextSample = (s.endUnit e).nextSample :=
  settle_end_field EndUnit.nextSample (fun _ => rfl) (fun _ => rfl) (fun _ => rfl) b s e
@[simp] theorem settle_carrier (b s : State) (e : EndId) : ((State.settle b s).endUnit e).carrier = (s.endUnit e).carrier :=
  settle_end_field EndUnit.carrier (fun _ => rfl) (fun _ => rfl) (fun _ => rfl) b s e
@[simp] theorem settle_activeCount (b s : State) (e : EndId) : ((State.settle b s).endUnit e).activeCount = (s.endUnit e).activeCount :=
  settle_end_field EndUnit.activeCount (fun _ => rfl) (fun _ => rfl) (fun _ => rfl) b s e
@[simp] theorem settle_silentCount (b s : State) (e : EndId) : ((State.settle b s).endUnit e).silentCount = (s.endUnit e).silentCount :=
  settle_end_field EndUnit.silentCount (fun _ => rfl) (fun _ => rfl) (fun _ => rfl) b s e
@[simp] theorem settle_freeTicks (b s : State) (e : EndId) : ((State.settle b s).endUnit e).freeTicks = (s.endUnit e).freeTicks :=
  settle_end_field EndUnit.freeTicks (fun _ => rfl) (fun _ => rfl) (fun _ => rfl) b s e
@[simp] theorem settle_mode (b s : State) (e : EndId) : ((State.settle b s).endUnit e).mode = (s.endUnit e).mode :=
  settle_end_field EndUnit.mode (fun _ => rfl) (fun _ => rfl) (fun _ => rfl) b s e
@[simp] theorem settle_segregated (b s : State) (e : EndId) : ((State.settle b s).endUnit e).segregated = (s.endUnit e).segregated :=
  settle_end_field EndUnit.segregated (fun _ => rfl) (fun _ => rfl) (fun _ => rfl) b s e
@[simp] theorem settle_attempts (b s : State) (e : EndId) : ((State.settle b s).endUnit e).attempts = (s.endUnit e).attempts :=
  settle_end_field EndUnit.attempts (fun _ => rfl) (fun _ => rfl) (fun _ => rfl) b s e

/-- Where an end keeps the standing conditions of detection, its unit but for the transmitter and a join begun stays. -/
theorem settle_detecting {b s : State} {e : EndId} (h : b.detectable e = true → s.detectable e = true) {α : Type}
    (p : EndUnit → α) (hr : ∀ u : EndUnit, p u.receiver = p u) (hj : ∀ u : EndUnit, p u.forgetJoin = p u) :
    p ((State.settle b s).endUnit e) = p (s.endUnit e) := by
  have hq : (b.detectable e && !s.detectable e) = false := by
    cases hb : b.detectable e
    · rfl
    · simp [h hb]
  rw [← hr, settle_receiver, hr, hq]
  cases b.outermost e && !s.outermost e
  · rfl
  · exact hj _

/-- A part of an end unit that is the same at rest as it stands, whatever the standing conditions. -/
theorem settle_quiet_end {b s : State} {e : EndId} (h : (s.endUnit e).toQuiet = s.endUnit e) {α : Type}
    (p : EndUnit → α) (hr : ∀ u : EndUnit, p u.receiver = p u) (hj : ∀ u : EndUnit, p u.forgetJoin = p u) :
    p ((State.settle b s).endUnit e) = p (s.endUnit e) := by
  rw [← hr, settle_receiver, hr]
  cases b.detectable e && !s.detectable e <;> cases b.outermost e && !s.outermost e <;> simp [EndUnit.rest, h, hj]

/-! ## Transmitters at the end of a step -/

theorem State.condition_congr {s t : State} (hp : t.powered = s.powered) (hn : t.form.node = s.form.node) (e : EndId)
    (hm : (t.endUnit e).mode = (s.endUnit e).mode) (hg : (t.endUnit e).segregated = (s.endUnit e).segregated) :
    t.condition e = s.condition e := by
  simp only [State.condition, hp, hn, hm, hg]

theorem EndUnit.rest_mode (q g : Bool) (u : EndUnit) : (u.rest q g).mode = u.mode := by cases q <;> cases g <;> rfl
theorem EndUnit.rest_segregated (q g : Bool) (u : EndUnit) : (u.rest q g).segregated = u.segregated := by
  cases q <;> cases g <;> rfl
theorem EndUnit.rest_sending (q g : Bool) (u : EndUnit) : (u.rest q g).sending = u.sending := by
  cases q <;> cases g <;> rfl
theorem EndUnit.rest_waiting (q g : Bool) (u : EndUnit) : (u.rest q g).waiting = u.waiting := by
  cases q <;> cases g <;> rfl
theorem EndUnit.rest_coming (q g : Bool) (u : EndUnit) : (u.rest q g).coming = u.coming := by
  cases q <;> cases g <;> rfl

theorem State.condition_restDetection (b s : State) (e : EndId) : (State.restDetection b s).condition e = s.condition e := by
  have hi := State.restDetection_interior b s
  have hp : (State.restDetection b s).powered = s.powered := (congrArg State.powered hi :)
  have hf : (State.restDetection b s).form = s.form := (congrArg State.form hi :)
  refine State.condition_congr hp (by rw [hf]) e ?_ ?_
  · rw [State.endUnit_restDetection, EndUnit.rest_mode]
  · rw [State.endUnit_restDetection, EndUnit.rest_segregated]

/-- Where a step changes no condition, the end units end it at rest or as they are. -/
theorem settle_endUnit_of_conditions {b s : State} (h : ∀ e, b.condition e = s.condition e) (e : EndId) :
    (State.settle b s).endUnit e =
      (s.endUnit e).rest (b.detectable e && !s.detectable e) (b.outermost e && !s.outermost e) := by
  rw [settle_endUnit, State.recondition_same b _ fun e' => by rw [State.condition_restDetection, h e'],
    State.endUnit_restDetection]

theorem settle_sending {b s : State} (h : ∀ e, b.condition e = s.condition e) (e : EndId) :
    ((State.settle b s).endUnit e).sending = (s.endUnit e).sending := by
  rw [settle_endUnit_of_conditions h, EndUnit.rest_sending]

theorem settle_waiting {b s : State} (h : ∀ e, b.condition e = s.condition e) (e : EndId) :
    ((State.settle b s).endUnit e).waiting = (s.endUnit e).waiting := by
  rw [settle_endUnit_of_conditions h, EndUnit.rest_waiting]

theorem settle_coming {b s : State} (h : ∀ e, b.condition e = s.condition e) (e : EndId) :
    ((State.settle b s).endUnit e).coming = (s.endUnit e).coming := by
  rw [settle_endUnit_of_conditions h, EndUnit.rest_coming]

/-! ## The car link at the end of a step -/

/-- The state with other end units. -/
def State.withEnds (s : State) (u v : EndUnit) : State := { s with e1 := u, e2 := v }

theorem State.mapEnd_withEnds (s : State) (e : EndId) (g : EndUnit → EndUnit) : ∃ u v, s.mapEnd e g = s.withEnds u v := by
  cases e
  · exact ⟨g s.e1, s.e2, rfl⟩
  · exact ⟨s.e1, g s.e2, rfl⟩

theorem State.mapEnds_withEnds (s : State) (e e' : EndId) (g g' : EndUnit → EndUnit) :
    ∃ u v, (s.mapEnd e g).mapEnd e' g' = s.withEnds u v := by
  obtain ⟨u, v, h⟩ := s.mapEnd_withEnds e g
  obtain ⟨u', v', h'⟩ := (s.withEnds u v).mapEnd_withEnds e' g'
  exact ⟨u', v', by rw [h, h']; rfl⟩

theorem State.reconditionEnd_withEnds (b x : State) (e : EndId) : ∃ u v, State.reconditionEnd b x e = x.withEnds u v := by
  unfold State.reconditionEnd
  split
  · exact ⟨x.e1, x.e2, rfl⟩
  · exact x.mapEnds_withEnds _ _ _ _

theorem State.recondition_withEnds (b s : State) : ∃ u v, State.recondition b s = s.withEnds u v := by
  obtain ⟨u, v, h⟩ := State.reconditionEnd_withEnds b s .e1
  obtain ⟨u', v', h'⟩ := State.reconditionEnd_withEnds b (s.withEnds u v) .e2
  exact ⟨u', v', by rw [State.recondition_eq, h, h']; rfl⟩

/-- Whether a notice is a CHANGE of a cell whose CHANGE waits. -/
def State.replaces (s : State) (b : NoticeBody) : Prop :=
  (b.isChange && s.link.notices.any fun n => n.body.changeOf == b.changeOf) = true

theorem State.joinNotice_of_replaces {s : State} {b : NoticeBody} (h : s.replaces b) : s.joinNotice b =
    { s with link := { s.link with notices := s.link.notices.map fun n =>
        if n.body.changeOf == b.changeOf then { n with time := s.capture, body := b } else n } } := if_pos h

theorem State.joinNotice_of_not_replaces {s : State} {b : NoticeBody} (h : ¬ s.replaces b) :
    s.joinNotice b = s.joinTail b := if_neg h

theorem State.joinNotice_withEnds (s : State) (u v : EndUnit) (b : NoticeBody) :
    (s.withEnds u v).joinNotice b = (s.joinNotice b).withEnds u v := by
  by_cases h : s.replaces b
  · rw [State.joinNotice_of_replaces h, State.joinNotice_of_replaces (s := s.withEnds u v) h]
    rfl
  · rw [State.joinNotice_of_not_replaces h, State.joinNotice_of_not_replaces (s := s.withEnds u v) h]
    rfl

theorem joinNotices_withEnds (bs : List NoticeBody) (s : State) (u v : EndUnit) :
    bs.foldl State.joinNotice (s.withEnds u v) = (bs.foldl State.joinNotice s).withEnds u v := by
  induction bs generalizing s with
  | nil => rfl
  | cons c bs ih => rw [List.foldl_cons, State.joinNotice_withEnds, ih, List.foldl_cons]

theorem State.flushNotices_withEnds (s : State) (u v : EndUnit) :
    (s.withEnds u v).flushNotices = s.flushNotices.withEnds u v :=
  joinNotices_withEnds _ { s with outbox := [] } u v

theorem State.beginFrame_withEnds (s : State) (u v : EndUnit) : (s.withEnds u v).beginFrame = s.beginFrame.withEnds u v := by
  unfold State.beginFrame State.withEnds
  dsimp only
  repeat' split
  all_goals rfl

/-- The end of a step does to the car link what joining the notices and beginning a frame do. -/
theorem settle_link (b s : State) : (State.settle b s).link = s.flushNotices.beginFrame.link := by
  obtain ⟨u, v, h⟩ := s.mapEnds_withEnds .e1 .e2
    (EndUnit.rest (b.detectable .e1 && !s.detectable .e1) (b.outermost .e1 && !s.outermost .e1))
    (EndUnit.rest (b.detectable .e2 && !(s.mapEnd .e1 (EndUnit.rest (b.detectable .e1 && !s.detectable .e1)
      (b.outermost .e1 && !s.outermost .e1))).detectable .e2) (b.outermost .e2 && !s.outermost .e2))
  have hr : State.restDetection b s = s.withEnds u v := h
  obtain ⟨u', v', h'⟩ := State.recondition_withEnds b (s.withEnds u v)
  unfold State.settle
  rw [hr, h', State.flushNotices_withEnds, State.flushNotices_withEnds, State.beginFrame_withEnds,
    State.beginFrame_withEnds]
  rfl

/-- With no notice made the end of a step only begins a frame. -/
theorem settle_link_of_no_notice (b s : State) (h : s.outbox = []) : (State.settle b s).link = s.beginFrame.link := by
  rw [settle_link, State.flushNotices_empty s h]

/-! ## Notices made in a step -/

theorem State.joinNotice_length (s : State) (b : NoticeBody) (h : s.link.notices.length < 32) :
    (s.joinNotice b).link.notices.length ≤ s.link.notices.length + 1 := by
  have hf : ¬ 32 ≤ s.link.notices.length := Nat.not_le.mpr h
  unfold State.joinNotice
  split
  · simp
  · simp [State.joinTail, Config.noticeSize, hf]

/-- A notice of another kind than CHANGE is behind every notice that waits. -/
theorem State.joinNotice_mem (s : State) {b : NoticeBody} (hb : b.isChange = false) :
    ∃ n ∈ (s.joinNotice b).link.notices, n.body = b := by
  simp [State.joinNotice, hb, State.joinTail]

theorem NoticeBody.changeOf_eq_none {b : NoticeBody} : b.changeOf = none ↔ b.isChange = false := by
  cases b <;> simp [NoticeBody.changeOf, NoticeBody.isChange]

/-- With room, a notice that joins displaces none but a CHANGE. -/
theorem State.joinNotice_keeps (s : State) (b : NoticeBody) {c : NoticeBody} (hc : c.isChange = false)
    (h : s.link.notices.length < 32) (hm : ∃ n ∈ s.link.notices, n.body = c) :
    ∃ n ∈ (s.joinNotice b).link.notices, n.body = c := by
  obtain ⟨n, hn, hnc⟩ := hm
  have hf : ¬ 32 ≤ s.link.notices.length := Nat.not_le.mpr h
  unfold State.joinNotice
  split
  · rename_i hb
    have hne : ¬ (n.body.changeOf == b.changeOf) = true := by
      rw [Bool.and_eq_true] at hb
      rw [hnc, NoticeBody.changeOf_eq_none.mpr hc, beq_iff_eq]
      intro h
      rw [NoticeBody.changeOf_eq_none.mp h.symm] at hb
      cases hb.1
    refine ⟨n, ?_, hnc⟩
    simp only [List.mem_map]
    exact ⟨n, hn, if_neg hne⟩
  · refine ⟨n, ?_, hnc⟩
    simp [State.joinTail, Config.noticeSize, hf, hn]

theorem joinNotices_mem (bs : List NoticeBody) (s : State) {c : NoticeBody} (hc : c.isChange = false)
    (h : s.link.notices.length + bs.length ≤ 32) (hm : c ∈ bs ∨ ∃ n ∈ s.link.notices, n.body = c) :
    ∃ n ∈ (bs.foldl State.joinNotice s).link.notices, n.body = c := by
  induction bs generalizing s with
  | nil =>
    rcases hm with hm | hm
    · cases hm
    · exact hm
  | cons b bs ih =>
    rw [List.length_cons] at h
    have hlt : s.link.notices.length < 32 := by omega
    refine ih (s.joinNotice b) ((Nat.add_le_add_right (s.joinNotice_length b hlt) _).trans (by omega)) ?_
    rcases hm with hm | hm
    · rcases List.mem_cons.mp hm with rfl | hm
      · exact .inr (s.joinNotice_mem hc)
      · exact .inl hm
    · exact .inr (s.joinNotice_keeps b hc hlt hm)

/-- A notice that waits when a frame begins still waits, or is the one that begins. -/
theorem State.beginFrame_queues {s : State} {c : NoticeBody} (h : ∃ n ∈ s.link.notices, n.body = c) :
    Queues s.beginFrame c := by
  obtain ⟨n, hn, hc⟩ := h
  unfold State.beginFrame
  split
  · split
    · exact .inl ⟨n, hn, hc⟩
    · split
      · exact .inl ⟨n, hn, hc⟩
      · split
        · exact .inl ⟨n, hn, hc⟩
        · rename_i m rest hq
          rw [hq] at hn
          rcases List.mem_cons.mp hn with rfl | hn
          · exact .inr ⟨n, rfl, hc⟩
          · exact .inl ⟨n, hn, hc⟩
  · exact .inl ⟨n, hn, hc⟩

theorem Queues.congr {s t : State} {b : NoticeBody} (h : t.link = s.link) (hq : Queues s b) : Queues t b := by
  unfold Queues
  rw [h]
  exact hq

/-- The notices of a rank that were made in a step. -/
def State.madeIn (s : State) (r : Nat) : List NoticeBody := (s.outbox.filter fun p => p.1 == r).map Prod.snd

/-- The notices made in a step but CHANGE notices, in the order in which they join the queue. -/
def State.madeOthers (s : State) : List NoticeBody := ((List.range rankChange).map s.madeIn).flatten

/-- The CHANGE notices made in a step, in the order in which they join the queue. -/
def State.madeChanges (s : State) : List NoticeBody :=
  (s.chan.watch.map fun w => (s.madeIn rankChange).filter fun b => b.changeOf == some w).flatten

theorem State.flushNotices_eq (s : State) : s.flushNotices =
    (s.madeOthers ++ s.madeChanges).foldl State.joinNotice { s with outbox := [] } := rfl

theorem State.madeOthers_eq (s : State) :
    s.madeOthers = s.madeIn 0 ++ s.madeIn 1 ++ s.madeIn 2 ++ s.madeIn 3 ++ s.madeIn 4 := by
  simp [State.madeOthers, rankChange, List.range_succ, List.range_zero]

theorem State.mem_madeOthers {s : State} {r : Nat} {b : NoticeBody} (h : (r, b) ∈ s.outbox) (hr : r < 5) :
    b ∈ s.madeOthers := by
  unfold State.madeOthers
  refine List.mem_flatten.mpr ⟨s.madeIn r, List.mem_map.mpr ⟨r, List.mem_range.mpr hr, rfl⟩, ?_⟩
  exact List.mem_map.mpr ⟨(r, b), List.mem_filter.mpr ⟨h, beq_self_eq_true r⟩, rfl⟩

theorem State.madeOthers_length (s : State) : s.madeOthers.length ≤ s.outbox.length := by
  rw [State.madeOthers_eq]
  simp only [State.madeIn, List.length_append, List.length_map]
  induction s.outbox with
  | nil => simp
  | cons p ps ih =>
    simp only [List.filter_cons, List.length_cons]
    repeat' split
    all_goals simp_all
    all_goals omega

/-- Whether no CHANGE notice can join the queue at the end of a step. -/
def State.NoChanges (s : State) : Prop := s.chan.watch = [] ∨ ∀ p ∈ s.outbox, p.1 ≠ rankChange

theorem State.madeChanges_of_noChanges {s : State} (h : s.NoChanges) : s.madeChanges = [] := by
  unfold State.madeChanges
  rcases h with h | h
  · rw [h]; rfl
  · have : s.madeIn rankChange = [] := by
      unfold State.madeIn
      rw [List.map_eq_nil_iff, List.filter_eq_nil_iff]
      intro p hp
      rw [beq_iff_eq]
      exact h p hp
    simp [this]

/-- What was noticed in a step waits behind it or begins, where there is room for all of it (R184). -/
theorem settle_queues {b s : State} {r : Nat} {c : NoticeBody} (hm : (r, c) ∈ s.outbox) (hr : r < 5)
    (hc : c.isChange = false) (hn : s.NoChanges) (hl : s.link.notices.length + s.outbox.length ≤ 32) :
    Queues (State.settle b s) c := by
  refine Queues.congr (settle_link b s) (State.beginFrame_queues ?_)
  rw [State.flushNotices_eq, State.madeChanges_of_noChanges hn, List.append_nil]
  exact joinNotices_mem _ _ hc ((Nat.add_le_add_left s.madeOthers_length _).trans hl) (.inl (State.mem_madeOthers hm hr))

/-- The only notice of a step waits behind it or begins, also in a full queue (R184). -/
theorem settle_queues_only {b s : State} {r : Nat} {c : NoticeBody} (hm : s.outbox = [(r, c)]) (hr : r < 5)
    (hc : c.isChange = false) : Queues (State.settle b s) c := by
  refine Queues.congr (settle_link b s) (State.beginFrame_queues ?_)
  have hne : r ≠ rankChange := by unfold rankChange; omega
  have ho : s.madeOthers = [c] := by
    rw [State.madeOthers_eq]
    have hmade : ∀ q, s.madeIn q = if r = q then [c] else [] := by
      intro q
      by_cases h : r = q <;> simp [State.madeIn, hm, h]
    have hcase : r = 0 ∨ r = 1 ∨ r = 2 ∨ r = 3 ∨ r = 4 := by omega
    rcases hcase with rfl | rfl | rfl | rfl | rfl <;> simp [hmade]
  have hch : s.madeChanges = [] := State.madeChanges_of_noChanges (.inr (by simp [hm, hne]))
  rw [State.flushNotices_eq, ho, hch]
  exact State.joinNotice_mem _ hc

end Sys2Proof.Machine
end

section
/-! PROOFS. The arms of `exec`, for the commands that the statements below speak of. -/

namespace Sys2Proof.Machine

open Sys2Proof

theorem exec_powerOn (s : State) : exec .powerOn s = execPowerOn s := rfl
theorem exec_powerLoss (s : State) (k : Nat) : exec (.powerLoss k) s = execPowerLoss k s := rfl
theorem exec_frameReceived (s : State) (k : Nat) (os : List Octet) : exec (.frameReceived k os) s = execFrameReceived k os s := rfl
theorem exec_frameTimeout (s : State) (k : Nat) (os : List Octet) : exec (.frameTimeout k os) s = execFrameTimeout k os s := rfl
theorem exec_transmitFrameEnd (s : State) (k : Nat) : exec (.transmitFrameEnd k) s = execTransmitFrameEnd k s := rfl
theorem exec_unknown (s : State) : exec .unknown s = execUnknown s := rfl
theorem exec_status (s : State) : exec .status s = execStatus s := rfl
theorem exec_start (s : State) : exec .start s = execStart s := rfl
theorem exec_stop (s : State) : exec .stop s = execStop s := rfl
theorem exec_restart (s : State) : exec .restart s = execRestart s := rfl
theorem exec_restartTakesEffect (s : State) (k : Nat) : exec (.restartTakesEffect k) s = execRestartTakesEffect k s := rfl
theorem exec_setEndMode (s : State) : exec .setEndMode s = execSetEndMode s := rfl
theorem exec_publish (s : State) : exec .publish s = execPublish s := rfl
theorem exec_readImage (s : State) : exec .readImage s = execReadImage s := rfl
theorem exec_readTable (s : State) : exec .readTable s = execReadTable s := rfl
theorem exec_watch (s : State) : exec .watch s = execWatch s := rfl
theorem exec_unwatch (s : State) : exec .unwatch s = execUnwatch s := rfl
theorem exec_split (s : State) : exec .split s = execSplit s := rfl
theorem exec_splitCancel (s : State) : exec .splitCancel s = execSplitCancel s := rfl
theorem exec_cabClaim (s : State) : exec .cabClaim s = execCabClaim s := rfl
theorem exec_cabRelease (s : State) : exec .cabRelease s = execCabRelease s := rfl
theorem exec_heading (s : State) : exec .heading s = execHeading s := rfl
theorem exec_settingsWrite (s : State) : exec .settingsWrite s = execSettingsWrite s := rfl
theorem exec_settingsProtect (s : State) : exec .settingsProtect s = execSettingsProtect s := rfl
theorem exec_storeOperationEnd (s : State) (k : Nat) : exec (.storeOperationEnd k) s = execStoreOperationEnd k s := rfl
theorem exec_listenTimeout (s : State) : exec .listenTimeout s = execListenTimeout s := rfl
theorem exec_contactSample (s : State) (e : EndId) (closed : Bool) : exec (.contactSample e closed) s = execContactSample e closed s := rfl
theorem exec_carrierChange (s : State) (k : Nat) (e : EndId) : exec (.carrierChange k e) s = execCarrierChange k e s := rfl
theorem exec_markReceived (s : State) (k : Nat) (e : EndId) (os : List Octet) : exec (.markReceived k e os) s = execMarkReceived k e os s := rfl
theorem exec_badRecordReceived (s : State) (k : Nat) (e : EndId) (os : List Octet) : exec (.badRecordReceived k e os) s = execBadRecordReceived k e os s := rfl
theorem exec_foreignMarkTimeout (s : State) (e : EndId) : exec (.foreignMarkTimeout e) s = execForeignMarkTimeout e s := rfl
theorem exec_foreignQuietTimeout (s : State) (e : EndId) : exec (.foreignQuietTimeout e) s = execForeignQuietTimeout e s := rfl
theorem exec_rollRecordReceived (s : State) (k : Nat) (e : EndId) (os : List Octet) : exec (.rollRecordReceived k e os) s = execRollRecordReceived k e os s := rfl
theorem exec_petitionRecordReceived (s : State) (k : Nat) (e : EndId) (os : List Octet) : exec (.petitionRecordReceived k e os) s = execPetitionRecordReceived k e os s := rfl
theorem exec_channelRecordReceived (s : State) (k : Nat) (e : EndId) (os : List Octet) : exec (.channelRecordReceived k e os) s = execChannelRecordReceived k e os s := rfl
theorem exec_waitingRecordSent (s : State) (e : EndId) : exec (.waitingRecordSent e) s = execWaitingRecordSent e s := rfl
theorem exec_generatedCycleStart (s : State) : exec .generatedCycleStart s = execGeneratedCycleStart s := rfl
theorem exec_switchMark (s : State) : exec .switchMark s = execSwitchMark s := rfl
theorem exec_armedReached (s : State) : exec .armedReached s = execArmedReached s := rfl
theorem exec_splitSwitch (s : State) : exec .splitSwitch s = execSplitSwitch s := rfl
theorem exec_yieldEnd (s : State) : exec .yieldEnd s = execYieldEnd s := rfl
theorem exec_armedTimeout (s : State) : exec .armedTimeout s = execArmedTimeout s := rfl
theorem exec_principalJoinDeadline (s : State) : exec .principalJoinDeadline s = execPrincipalJoinDeadline s := rfl
theorem exec_absorbedJoinDeadline (s : State) : exec .absorbedJoinDeadline s = execAbsorbedJoinDeadline s := rfl
theorem exec_silenceLimit (s : State) : exec .silenceLimit s = execSilenceLimit s := rfl
theorem exec_workItemStart (s : State) : exec .workItemStart s = execWorkItemStart s := rfl
theorem exec_cellStart (s : State) : exec .cellStart s = execCellStart s := rfl
theorem exec_flywheelStart (s : State) : exec .flywheelStart s = execFlywheelStart s := rfl
theorem exec_orphanEntry (s : State) : exec .orphanEntry s = execOrphanEntry s := rfl
theorem exec_yieldSeekEntry (s : State) : exec .yieldSeekEntry s = execYieldSeekEntry s := rfl
theorem exec_coastingStart (s : State) : exec .coastingStart s = execCoastingStart s := rfl
theorem exec_succession (s : State) : exec .succession s = execSuccession s := rfl
theorem exec_firstGeneratedMark (s : State) : exec .firstGeneratedMark s = execFirstGeneratedMark s := rfl
theorem exec_seekDeadlineResume (s : State) : exec .seekDeadlineResume s = execSeekDeadlineResume s := rfl
theorem exec_seekDeadlineOrphan (s : State) : exec .seekDeadlineOrphan s = execSeekDeadlineOrphan s := rfl
theorem exec_enrollAttemptAdvance (s : State) : exec .enrollAttemptAdvance s = execEnrollAttemptAdvance s := rfl
theorem exec_windowOpens (s : State) : exec .windowOpens s = execWindowOpens s := rfl
theorem exec_frameDropped (s : State) (k : Nat) (os : List Octet) : exec (.frameDropped k os) s = execFrameDropped k os s := rfl

theorem whenPowered_of_powered {s : State} (h : s.powered = true) (f : State → Result) : whenPowered s f = f s := if_pos h

end Sys2Proof.Machine
end

section
/-! PROOFS. Power, reset, and the requests that ask, start, stop, publish and read (R44 to R48, R149, R160, R161, R164,
R177 to R182, R185). -/

namespace Sys2Proof.Machine

open Sys2Proof

/-! ## Reset and power -/

/-- Settles O8: reset is the part after power-on with an unwritten store. -/
theorem resetValues : Obligations.ResetValues := by
  refine ⟨⟨rfl, fun _ => ⟨rfl, .inl rfl⟩⟩, ⟨Nat.zero_le _, Nat.zero_le _, rfl⟩, rfl, rfl, rfl, rfl, rfl, rfl, rfl, rfl, rfl,
    rfl, rfl, rfl, rfl, fun e => ?_⟩
  cases e <;> exact ⟨rfl, rfl, rfl, rfl, rfl, rfl⟩

theorem powerLoss_powered {s : State} (k : Nat) (h : s.powered = true) : exec (.powerLoss k) s =
    .next (State.powerOnValues false (s.now + k) s.store.interrupted.checked s.pending) := by
  rw [exec_powerLoss, execPowerLoss, whenPowered_of_powered h, State.advance_now]

theorem Store.interrupted_of_idle {st : Store} (h : st.op = none) : st.interrupted = st := by
  simp [Store.interrupted, h]

/-- An interrupted operation spoils its own area and leaves the other. -/
theorem Store.interrupted_intact {st : Store} {op : StoreOp} (h : st.op = some op) :
    st.interrupted.identity.intact = (st.identity.intact && decide (op.area = .service))
      ∧ st.interrupted.service.intact = (st.service.intact && decide (op.area = .identity)) := by
  unfold Store.interrupted
  rw [h]
  cases ha : op.area <;> simp [ha]

/-- Settles O23: power applied checks both areas; an operation that power interrupts leaves its area without agreement. -/
theorem powerComesAndGoes : Obligations.PowerComesAndGoes := by
  refine ⟨fun s => ?_, fun s op k hp hop => ?_⟩
  · refine ⟨_, exec_powerOn s, rfl, rfl, rfl, rfl, rfl, rfl, rfl, rfl, rfl, rfl, rfl, fun h => ?_⟩
    simp only [State.powerOnValues, Store.interrupted_of_idle h]
    exact ⟨rfl, rfl⟩
  · obtain ⟨hi, hs⟩ := Store.interrupted_intact hop
    refine ⟨_, _, powerLoss_powered k hp, rfl, exec_powerOn _, rfl, fun ha => ?_, fun ha => ?_⟩
    · rw [ha] at hi hs
      exact ⟨hi.trans (Bool.and_false _), hs.trans (Bool.and_true _)⟩
    · rw [ha] at hi hs
      exact ⟨hs.trans (Bool.and_false _), hi.trans (Bool.and_true _)⟩

/-! ## Asking about the part -/


/-- Settles O19: the flags are cleared behind the reply that holds them. -/
theorem statusReportsAndClears : Obligations.StatusReportsAndClears := by
  intro s f h hb
  refine ⟨?_, rfl, rfl⟩
  rw [exec_status, execStatus, serve_ready _ h (parseNothing_of_eq_nil hb)]
  exact finish_reply_same s { s with link := { s.link with flags := StickyFlags.clear } } f .done _ rfl rfl rfl rfl
    h.2.1 h.2.2.2.2.1

/-- A request served with a body not laid out for it is only replied. -/
theorem serve_malformed_replied {α : Type} {s : State} {f : Frame} {k : Octet} {parse : List Octet → Option α}
    (judge : α → Frame → State → State) (ha : parse f.body = none) (h : Ready s f k) :
    serve k parse s judge = .next (s.replied f .malformed .empty) := by
  rw [serve_malformed judge h ha, finish_reply_self h]

theorem unknown_replied {s : State} {f : Frame} (h : Ready s f f.kind) (hk : isRequest f.kind = false) :
    exec .unknown s = .next (s.replied f .unknown .empty) := by
  have hf : (s.frameFor fun k => !isRequest k) = some f := by
    have h0 := h.frameFor
    unfold State.frameFor at h0 ⊢
    split at h0
    · rename_i g rest hg
      split at h0
      · rename_i hc
        obtain rfl : g = f := by injection h0
        rw [if_pos]
        simp only [Bool.and_eq_true] at hc ⊢
        exact ⟨hc.1, by simp [hk]⟩
      · cases h0
    · cases h0
  rw [exec_unknown, execUnknown, hf]
  exact finish_reply_self h _ _

/-- Settles O17: every request's body is parsed before its rule is asked, and no kind outside 1 to 19 is any request's. -/
theorem unservedKindsAndBodies : Obligations.UnservedKindsAndBodies := by
  refine ⟨fun s f => ⟨fun hb => ?_, fun hb => ?_, fun hb => ?_, fun hb => ?_, fun hb => ?_, fun hb => ?_, fun hb => ?_,
    fun hb => ?_, fun hb => ?_, fun hb => ?_, fun hb => ?_⟩, fun s f h hk => unknown_replied h hk⟩
  · exact ⟨fun h => (exec_identify s).trans (serve_malformed_replied _ hb h),
      fun h => (exec_status s).trans (serve_malformed_replied _ hb h),
      fun h => (exec_start s).trans (serve_malformed_replied _ hb h),
      fun h => (exec_stop s).trans (serve_malformed_replied _ hb h),
      fun h => (exec_restart s).trans (serve_malformed_replied _ hb h),
      fun h => (exec_cabClaim s).trans (serve_malformed_replied _ hb h),
      fun h => (exec_cabRelease s).trans (serve_malformed_replied _ hb h)⟩
  · exact fun h => (exec_setEndMode s).trans (serve_malformed_replied _ hb h)
  · exact fun h => (exec_publish s).trans (serve_malformed_replied _ hb h)
  · exact fun h => (exec_readImage s).trans (serve_malformed_replied _ hb h)
  · exact fun h => (exec_readTable s).trans (serve_malformed_replied _ hb h)
  · exact ⟨fun h => (exec_watch s).trans (serve_malformed_replied _ hb h),
      fun h => (exec_unwatch s).trans (serve_malformed_replied _ hb h)⟩
  · exact ⟨fun h => (exec_split s).trans (serve_malformed_replied _ hb h),
      fun h => (exec_splitCancel s).trans (serve_malformed_replied _ hb h)⟩
  · exact fun h => (exec_heading s).trans (serve_malformed_replied _ hb h)
  · exact fun h => (exec_settingsRead s).trans (serve_malformed_replied _ hb h)
  · exact fun h => (exec_settingsWrite s).trans (serve_malformed_replied _ hb h)
  · exact fun h => (exec_settingsProtect s).trans (serve_malformed_replied _ hb h)

/-! ## Starting, stopping and restarting -/


theorem exec_start_ready {s : State} {f : Frame} (h : Ready s f reqStart) (hb : f.body = []) : exec .start s = finish s
    (if s.form.node ≠ .detached then s.reply f .wrongState .empty
      else if s.store.op.isSome then s.reply f .busy .empty
      else if !s.store.identity.good then s.reply f .notConfigured .empty
      else s.startUp.reply f .done .empty) := by
  rw [exec_start, execStart, serve_ready _ h (parseNothing_of_eq_nil hb)]

/-- A reply that begins or waits is behind no notice: the end of its step leaves the notices. -/
theorem settle_reply_link (b x : State) (f : Frame) (o : Outcome) (body : ReplyBody) (ho : x.outbox = []) :
    (State.settle b (x.reply f o body)).link.notices = x.link.notices
      ∧ (State.settle b (x.reply f o body)).link.flags = x.link.flags
      ∧ (State.settle b (x.reply f o body)).link.number = x.link.number := by
  rw [settle_link_of_no_notice b (x.reply f o body) ho]
  unfold State.beginFrame
  split
  · exact ⟨rfl, rfl, rfl⟩
  · exact ⟨rfl, rfl, rfl⟩

theorem State.reply_endUnit (x : State) (f : Frame) (o : Outcome) (b : ReplyBody) (e : EndId) :
    (x.reply f o b).endUnit e = x.endUnit e := by cases e <;> rfl

/-- Settles O20. -/
theorem startJudged : Obligations.StartJudged := by
  refine ⟨fun s f h hb hn hop hid => ?_, fun s f h hb => ⟨fun hn => ?_, fun hn hop => ?_, fun hn hop hid => ?_⟩⟩
  · have hx : exec .start s = finish s (s.startUp.reply f .done .empty) := by
      rw [exec_start_ready h hb]
      simp [hn, hop, hid]
    obtain ⟨hnot, hfl, -⟩ := settle_reply_link s s.startUp f .done .empty h.2.1
    refine ⟨_, hx, ?_⟩
    simp only [settle_form, settle_timer, settle_store, settle_chan, settle_contact, settle_filterCount,
      settle_nextSample, settle_mode, settle_carrier, State.reply_endUnit, hnot, hfl]
    refine ⟨rfl, rfl, rfl, rfl, rfl, rfl, fun e => ?_, rfl, rfl, rfl, rfl, ?_⟩
    · cases e <;> exact ⟨rfl, rfl, rfl, rfl, rfl⟩
    · cases hg : s.store.service.good <;> simp [State.startUp, State.setFlags, hg]
  · rw [exec_start_ready h hb, if_pos hn, finish_reply_self h]
  · rw [exec_start_ready h hb, if_neg (not_not.mpr hn), if_pos (Option.isSome_iff_ne_none.mpr hop), finish_reply_self h]
  · rw [exec_start_ready h hb, if_neg (not_not.mpr hn), if_neg (by simp [hop]), if_pos (by simp [hid]),
      finish_reply_self h]

/-- A transmitter without any record. -/
def EndUnit.Empty (u : EndUnit) : Prop := u.sending = none ∧ u.waiting = none ∧ u.coming = none

theorem EndUnit.Empty.keepRecords {u : EndUnit} (h : u.Empty) (now : Nat) (p : TxProgress → Bool) (q : TxRecord → Bool) :
    (u.keepRecords now p q).Empty := by
  obtain ⟨h1, _, h3⟩ := h
  simp [EndUnit.Empty, EndUnit.keepRecords, h1, h3]

theorem EndUnit.Empty.rest {u : EndUnit} (h : u.Empty) (q g : Bool) : (u.rest q g).Empty := by
  unfold EndUnit.Empty
  rw [EndUnit.rest_sending, EndUnit.rest_waiting, EndUnit.rest_coming]
  exact h

theorem State.mapEnd_empty {s : State} (e : EndId) (g : EndUnit → EndUnit) (hs : ∀ e', (s.endUnit e').Empty)
    (hg : ∀ u : EndUnit, u.Empty → (g u).Empty) (e' : EndId) : ((s.mapEnd e g).endUnit e').Empty := by
  cases e <;> cases e' <;> first | exact hg _ (hs _) | exact hs .e1 | exact hs .e2

theorem State.reconditionEnd_empty {b s : State} (e : EndId) (hs : ∀ e', (s.endUnit e').Empty) (e' : EndId) :
    ((State.reconditionEnd b s e).endUnit e').Empty := by
  unfold State.reconditionEnd
  split
  · exact hs e'
  · exact State.mapEnd_empty _ _ (State.mapEnd_empty _ _ hs fun u hu => hu.keepRecords _ _ _)
      (fun u hu => hu.keepRecords _ _ _) e'

theorem settle_empty {b s : State} (hs : ∀ e, (s.endUnit e).Empty) (e : EndId) : ((State.settle b s).endUnit e).Empty := by
  rw [settle_endUnit, State.recondition_eq]
  refine State.reconditionEnd_empty _ (State.reconditionEnd_empty _ fun e' => ?_) e
  rw [State.endUnit_restDetection]
  exact (hs e').rest _ _

/-- Settles O21. -/
theorem stopEntersDetached : Obligations.StopEntersDetached := by
  intro s f h hb
  refine ⟨fun hn => ?_, fun hn => ?_⟩
  · rw [exec_stop, execStop, serve_ready _ h (parseNothing_of_eq_nil hb), if_pos hn, finish_reply_self h]
  · have hx : exec .stop s = finish s (s.shutDown.reply f .done .empty) := by
      rw [exec_stop, execStop, serve_ready _ h (parseNothing_of_eq_nil hb), if_neg hn]
    obtain ⟨hnot, hfl, hnum⟩ := settle_reply_link s s.shutDown f .done .empty h.2.1
    have hempty : ∀ e, ((s.shutDown.reply f .done .empty).endUnit e).Empty := by
      intro e; cases e <;> exact ⟨rfl, rfl, rfl⟩
    have hphase : ∀ e, ((State.settle s (s.shutDown.reply f .done .empty)).endUnit e).phase = .quiet := fun e =>
      (settle_quiet_end (by cases e <;> rfl) EndUnit.phase (fun _ => rfl) (fun _ => rfl)).trans (by cases e <;> rfl)
    refine ⟨_, hx, ?_⟩
    simp only [settle_form, settle_timer, settle_planner, settle_pet, settle_store, settle_chan, settle_contact,
      settle_nextSample, settle_mode, settle_carrier, settle_segregated, settle_attempts, State.reply_endUnit, hnot, hfl,
      hnum, hphase]
    refine ⟨rfl, rfl, rfl, rfl, rfl, rfl, rfl, rfl, rfl, rfl, rfl, rfl, fun e => ?_⟩
    obtain ⟨h1, h2, h3⟩ := settle_empty (b := s) hempty e
    refine ⟨?_, ?_, ?_, ?_, ?_, ?_, trivial, h1, h2, h3⟩ <;> cases e <;> rfl

/-- Settles O22. -/
theorem restartServedThenTaken : Obligations.RestartServedThenTaken := by
  intro s f k
  refine ⟨fun h hb => ?_, fun hp hr hrep htx hop => ?_⟩
  · rw [exec_restart, execRestart, serve_ready _ h (parseNothing_of_eq_nil hb)]
    exact finish_reply_same s { s with link := { s.link with restarting := true } } f .done .empty rfl rfl rfl rfl h.2.1
      h.2.2.2.2.1
  · have hdue : s.restartDue = true := by simp [State.restartDue, hr, hrep, htx, hop]
    have hx : exec (.restartTakesEffect k) s =
        .next (State.powerOnValues true (s.advance k).now s.store.checked s.pending) := by
      rw [exec_restartTakesEffect, execRestartTakesEffect, whenPowered_of_powered hp, if_pos hdue]
    exact ⟨_, hx, rfl, rfl, rfl, rfl, rfl, rfl, rfl, rfl, rfl, rfl, rfl, rfl⟩

end Sys2Proof.Machine
end

section
/-! PROOFS. The requests on channels, image, watch list, wants and store (R129, R149, R160, R161, R165 to R171, R182,
R183). -/

namespace Sys2Proof.Machine

open Sys2Proof

/-! ## Channels, image and tables -/

theorem parsePublish_cons {ch : Octet} {p : List Octet} (h : p.length ≤ 32) : parsePublish (ch :: p) = some (ch.toNat, p) :=
  if_pos h

/-- The channel count that PUBLISH judges against, as its rule writes it (R149). -/
theorem State.channelCount_eq (s : State) : s.channelCount = (match s.store.snapshot with
    | some sn => sn.service.channels.length
    | none => (if s.store.service.good then s.store.service.contents else Service.defaults).channels.length) := by
  unfold State.channelCount Store.readService
  cases s.store.snapshot <;> rfl

/-- Settles O25. -/
theorem publishWritesStaging : Obligations.PublishWritesStaging := by
  intro s f ch p h hb hp
  have hx := serve_ready (fun (a : Nat × List Octet) f s => if s.channelCount ≤ a.1 then s.reply f .badArgument .empty
    else ({ s with chan := { s.chan with out := s.chan.out.set a.1 { s.outOf a.1 with
      staging := padded a.2, written := true } } } : State).reply f .done .empty) h (hb ▸ parsePublish_cons hp)
  rw [exec_publish]
  refine ⟨fun hlt => hx.trans ?_, fun hle => hx.trans ?_⟩
  · rw [if_neg (by rw [State.channelCount_eq]; exact Nat.not_le.mpr hlt)]
    exact finish_reply_chan_store h _ s.store .done .empty
  · rw [if_pos (by rw [State.channelCount_eq]; exact hle), finish_reply_self h]

theorem validTag_iff (t : Tag) : validTag t = true ↔ t ≠ 0 ∧ t ≠ BitVec.allOnes 48 := by
  simp [validTag]

/-- The ranges of a cell's name, as its rule writes them (R182). -/
theorem CellName.ok_iff (c : CellName) : c.ok = true ↔ (match c with
    | .byTag t ch => t ≠ 0 ∧ t ≠ BitVec.allOnes 48 ∧ ch ≤ 7
    | .byPosition p ch => 1 ≤ p ∧ p ≤ 16 ∧ ch ≤ 7) := by
  cases c with
  | byTag t ch => simp [CellName.ok, validTag_iff, and_assoc]
  | byPosition p ch => simp [CellName.ok, and_assoc]

theorem readImage_judged {s : State} {f : Frame} {c : CellName} (h : Ready s f reqReadImage)
    (hc : parseReadImage f.body = some c) : exec .readImage s = .next (if !c.ok then s.replied f .badArgument .empty
      else match s.findCell c with
        | some x => s.replied f .done (.cell (x.report (some s.trainTime)))
        | none => s.replied f .notFound .empty) := by
  rw [exec_readImage, execReadImage, serve_ready _ h hc]
  cases c.ok
  · exact finish_reply_self h _ _
  · cases s.findCell c <;> exact finish_reply_self h _ _

theorem readTable_judged {s : State} {f : Frame} {i c : Nat} (h : Ready s f reqReadTable)
    (hc : parseReadTable f.body = some (i, c)) : exec .readTable s = .next (
      if c = 0 || 7 < c || i = 0 || 16 < i then s.replied f .badArgument .empty
      else match s.readableTable with
        | none => s.replied f .notFound .empty
        | some (heard, ep, size, ens) =>
          if size < i then s.replied f .notFound .empty
          else s.replied f .done (.table heard ep size i
            ((List.range (min (i + c - 1) size + 1 - i)).map fun k => entryAt ens (i + k)))) := by
  rw [exec_readTable, execReadTable, serve_ready _ h hc]
  dsimp only
  split
  · exact finish_reply_self h _ _
  · cases s.readableTable with
    | none => exact finish_reply_self h _ _
    | some r =>
      dsimp only
      split
      · exact finish_reply_self h _ _
      · exact finish_reply_self h _ _

theorem State.readableTable_of_holds {s : State}
    (h : s.form.node = .lead ∨ s.form.node = .member ∨ s.form.node = .seek ∨ s.form.node = .orphan) :
    s.readableTable = s.form.current.map fun t => (false, t.epoch, t.size, t.entries) := by
  unfold State.readableTable
  rcases h with h | h | h | h <;> rw [h]

theorem State.readableTable_of_applicant {s : State} (h : s.form.node = .applicant) :
    s.readableTable = s.form.asmCurrent.map fun a => (true, a.epoch, a.size, a.entries) := by
  unfold State.readableTable
  rw [h]

theorem State.readableTable_of_none {s : State} (h : s.form.node = .detached ∨ s.form.node = .listen) :
    s.readableTable = none := by
  unfold State.readableTable
  rcases h with h | h <;> rw [h]

/-- Settles O26. -/
theorem imageAndTableRead : Obligations.ImageAndTableRead := by
  refine ⟨fun s f c h hc => ?_, fun s f i c h hb => ?_⟩
  · have hx := readImage_judged h hc
    have hok := CellName.ok_iff c
    refine ⟨fun hn => ?_, fun hy hf => ?_, fun x hy hf => ?_⟩
    · rw [hx, if_pos (by rw [Bool.not_eq_true', ← Bool.not_eq_true]; exact fun h => hn (hok.mp h))]
    · rw [hx, if_neg (by simp [hok.mpr hy]), hf]
    · rw [hx, if_neg (by simp [hok.mpr hy]), hf]
  · have hp : parseReadTable f.body = some (i.toNat, c.toNat) := by rw [hb]; rfl
    have hx := readTable_judged h hp
    have hok : (decide (c.toNat = 0) || decide (7 < c.toNat) || decide (i.toNat = 0) || decide (16 < i.toNat)) = true ↔
        ¬ (1 ≤ c.toNat ∧ c.toNat ≤ 7 ∧ 1 ≤ i.toNat ∧ i.toNat ≤ 16) := by
      simp only [Bool.or_eq_true, decide_eq_true_eq]
      omega
    have hin : ∀ (hy : 1 ≤ c.toNat ∧ c.toNat ≤ 7 ∧ 1 ≤ i.toNat ∧ i.toNat ≤ 16), exec .readTable s = .next (
        match s.readableTable with
        | none => s.replied f .notFound .empty
        | some (heard, ep, size, ens) =>
          if size < i.toNat then s.replied f .notFound .empty
          else s.replied f .done (.table heard ep size i.toNat
            ((List.range (min (i.toNat + c.toNat - 1) size + 1 - i.toNat)).map fun k => entryAt ens (i.toNat + k)))) :=
      fun hy => by rw [hx, if_neg fun hc => (hok.mp hc) hy]
    refine ⟨fun hn => ?_, fun hy hn => ?_, fun hy hn hcur => ?_, fun t hy hn hcur => ?_, fun hy hn hasm => ?_,
      fun a hy hn hasm => ?_⟩
    · rw [hx, if_pos (hok.mpr hn)]
    · rw [hin hy, State.readableTable_of_none hn]
    · rw [hin hy, State.readableTable_of_holds hn, hcur, Option.map_none]
    · rw [hin hy, State.readableTable_of_holds hn, hcur, Option.map_some]
    · rw [hin hy, State.readableTable_of_applicant hn, hasm, Option.map_none]
    · rw [hin hy, State.readableTable_of_applicant hn, hasm, Option.map_some]

/-! ## The watch list -/

theorem watch_judged {s : State} {f : Frame} {w : Tag × Nat} (h : Ready s f reqWatch) (hw : parseWatch f.body = some w) :
    exec .watch s = .next (if 7 < w.2 || !validTag w.1 then s.replied f .badArgument .empty
      else if s.chan.watch.contains w then s.replied f .done .empty
      else if 16 ≤ s.chan.watch.length then s.replied f .full .empty
      else ({ s with chan := { s.chan with watch := s.chan.watch ++ [w] } } : State).replied f .done .empty) := by
  rw [exec_watch, execWatch, serve_ready _ h hw]
  by_cases h1 : (decide (7 < w.2) || !validTag w.1) = true
  · rw [if_pos h1, if_pos h1, finish_reply_self h]
  · rw [if_neg h1, if_neg h1]
    by_cases h2 : s.chan.watch.contains w = true
    · rw [if_pos h2, if_pos h2, finish_reply_self h]
    · rw [if_neg h2, if_neg h2]
      by_cases h3 : 16 ≤ s.chan.watch.length
      · rw [if_pos h3, if_pos (show Config.watchSize ≤ s.chan.watch.length from h3), finish_reply_self h]
      · rw [if_neg h3, if_neg (show ¬ Config.watchSize ≤ s.chan.watch.length from h3)]
        exact finish_reply_same s { s with chan := { s.chan with watch := s.chan.watch ++ [w] } } f .done .empty rfl rfl
          rfl rfl h.2.1 h.2.2.2.2.1

/-- Settles O27: UNWATCH takes out of the queue what is about the cell; the reply that follows begins or waits and leaves
the notices. -/
theorem watchListEdited : Obligations.WatchListEdited := by
  refine ⟨fun s f w h hw => ?_, fun s f w h hw => ⟨fun hn => ?_, fun hm => ?_⟩⟩
  · have hx := watch_judged h hw
    have hok : (decide (7 < w.2) || !validTag w.1) = true ↔ ¬ (w.2 ≤ 7 ∧ validTag w.1 = true) := by
      simp only [Bool.or_eq_true, decide_eq_true_eq, Bool.not_eq_true', not_and_or, Bool.not_eq_true, not_le]
    refine ⟨fun hn => ?_, fun hy hm => ?_, fun hy hm hl => ?_, fun hy hm hl => ?_⟩
    · rw [hx, if_pos (hok.mpr hn)]
    · rw [hx, if_neg fun hc => (hok.mp hc) hy, if_pos (List.contains_iff_mem.mpr hm)]
    · rw [hx, if_neg fun hc => (hok.mp hc) hy, if_neg fun hc => hm (List.contains_iff_mem.mp hc), if_pos hl]
    · rw [hx, if_neg fun hc => (hok.mp hc) hy, if_neg fun hc => hm (List.contains_iff_mem.mp hc),
        if_neg (Nat.not_le.mpr hl)]
  · rw [exec_unwatch, execUnwatch, serve_ready _ h hw, if_neg fun hc => hn (List.contains_iff_mem.mp hc),
      finish_reply_self h]
  · let x : State := { s with
      chan := { s.chan with watch := s.chan.watch.filter fun x => x != w }
      link := { s.link with notices := s.link.notices.filter fun n => n.body.changeOf != some w } }
    have hx : exec .unwatch s = finish s (x.reply f .done .empty) := by
      rw [exec_unwatch, execUnwatch, serve_ready _ h hw, if_pos (List.contains_iff_mem.mpr hm)]
    obtain ⟨hnot, -, hnum⟩ := settle_reply_link s x f .done .empty h.2.1
    refine ⟨_, hx, ?_⟩
    simp only [settle_form, settle_timer, settle_pet, settle_chan, hnot, hnum]
    refine ⟨?_, fun y hy => ?_, fun n => ?_, rfl, rfl, rfl, rfl, rfl, rfl⟩
    · simp [x, State.reply]
    · simp [x, State.reply, hy]
    · simp [x]

/-! ## Wants -/

theorem wants_refused {s : State} {f : Frame} {k : Octet} (h : Ready s f k) {p : Prop} [Decidable p] {x y : State}
    (hp : p) (hx : x = s.reply f .wrongState .empty) :
    finish s (if p then x else y) = .next (s.replied f .wrongState .empty) := by
  rw [if_pos hp, hx, finish_reply_self h]

theorem State.takesWants_eq_false {s : State} (h1 : s.form.node ≠ .lead) (h2 : s.form.node ≠ .member) :
    s.takesWants = false := by
  simp [State.takesWants, h1, h2]

theorem State.takesWants_iff (s : State) : s.takesWants = true ↔ s.form.node = .lead ∨ s.form.node = .member := by
  simp [State.takesWants]

/-- Settles O28. -/
theorem wantsRefused : Obligations.WantsRefused := by
  intro s f
  refine ⟨fun h1 h2 => ?_, fun p hn hp hb => ?_⟩
  · have hw : (!s.takesWants) = true := by rw [State.takesWants_eq_false h1 h2]; rfl
    refine ⟨fun h hb => ?_, fun h hb => ?_, fun d h hb => ?_, fun p h hb => ?_, fun p h hb => ?_⟩
    · rw [exec_cabClaim, execCabClaim, serve_ready _ h (parseNothing_of_eq_nil hb)]
      exact wants_refused h hw rfl
    · rw [exec_cabRelease, execCabRelease, serve_ready _ h (parseNothing_of_eq_nil hb)]
      exact wants_refused h hw rfl
    · rw [exec_heading, execHeading, serve_ready _ h hb]
      exact wants_refused h hw rfl
    · rw [exec_split, execSplit, serve_ready (a := p.toNat) _ h (by rw [hb]; rfl)]
      exact wants_refused h hw rfl
    · rw [exec_splitCancel, execSplitCancel, serve_ready (a := p.toNat) _ h (by rw [hb]; rfl)]
      exact wants_refused h hw rfl
  · have hw : ¬ (!s.takesWants) = true := by rw [(State.takesWants_iff s).mpr hn]; exact Bool.false_ne_true
    have hr : (decide (p.toNat = 0) || decide (15 < p.toNat)) = true := by simpa using hp
    refine ⟨fun h => ?_, fun h => ?_⟩
    · rw [exec_split, execSplit, serve_ready (a := p.toNat) _ h (by rw [hb]; rfl), if_neg hw, if_pos hr, finish_reply_self h]
    · rw [exec_splitCancel, execSplitCancel, serve_ready (a := p.toNat) _ h (by rw [hb]; rfl), if_neg hw, if_pos hr,
        finish_reply_self h]

/-- Out of LEAD a queued want waits. -/
theorem State.queueWant_of_not_lead {s : State} (w : Want) (h : s.form.node ≠ .lead) :
    s.queueWant w = { s with pet := { s.pet with queue := putWant w s.pet.queue } } := if_neg h

/-- In LEAD a queued want is offered. -/
theorem State.queueWant_of_lead {s : State} (w : Want) (h : s.form.node = .lead) :
    s.queueWant w = ({ s with pet := { s.pet with queue := putWant w s.pet.queue } } : State).offer w := if_pos h

theorem jointTags_of_entries {ens : List Entry} {p : Nat} {a b : Entry} (ha : entryAt ens p = some a)
    (hb : entryAt ens (p + 1) = some b) : jointTags ens p = some (a.tag, b.tag) := by
  rw [jointTags, ha, hb]

theorem jointTags_of_none {ens : List Entry} {p : Nat} (hb : entryAt ens (p + 1) = none) : jointTags ens p = none := by
  rw [jointTags, hb]
  cases entryAt ens p <;> rfl

/-- A member's want is queued and its request ACCEPTED (R85, R183). -/
theorem finish_queueWant {s : State} {f : Frame} {k : Octet} (h : Ready s f k) (hn : s.form.node = .member) (w : Want) :
    finish s ((s.queueWant w).reply f .accepted .empty) =
      .next (({ s with pet := { s.pet with queue := putWant w s.pet.queue } } : State).replied f .accepted .empty) := by
  rw [State.queueWant_of_not_lead w (by rw [hn]; exact fun hc => by cases hc)]
  exact finish_reply_same s { s with pet := { s.pet with queue := putWant w s.pet.queue } } f .accepted .empty rfl rfl rfl
    rfl h.2.1 h.2.2.2.2.1

theorem State.flushNotices_reply (s : State) : s.flushNotices.link.reply = s.link.reply :=
  congrArg (fun p => p.spared.reply) s.flushNotices_shell

/-- A reply made in a step stands at its end: it begins, or it waits (R175, R176). -/
theorem settle_replies {b x : State} {f : Frame} {o : Outcome} {body : ReplyBody}
    (h : x.link.reply = some { kind := replyKind f.kind, tag := f.tag, outcome := o, body := body }) :
    Replies (State.settle b x) f o body := by
  have hr := x.flushNotices_reply.trans h
  unfold Replies
  rw [settle_link]
  unfold State.beginFrame
  split
  · rw [hr]; exact .inl rfl
  · exact .inr hr

theorem find_filter_not {α : Type} (p : α → Bool) (l : List α) : (l.filter fun a => !p a).find? p = none := by
  rw [List.find?_eq_none]
  intro a ha
  simpa using (List.mem_filter.mp ha).2

theorem State.wantOf_dropWant (s : State) (k : WantKind) (e : Option EndId) : (s.dropWant k e).wantOf k e = none :=
  find_filter_not (Want.is k e) s.pet.queue

theorem State.wantOf_congr {s t : State} (h : t.pet = s.pet) (k : WantKind) (e : Option EndId) :
    t.wantOf k e = s.wantOf k e := by
  rw [State.wantOf, State.wantOf, h]

/-- Settles O29. -/
theorem memberQueuesWants : Obligations.MemberQueuesWants := by
  refine ⟨fun s f hn => ?_, fun s f p h hb h1 h15 hn hnone => ?_⟩
  · have hw : ¬ (!s.takesWants) = true := by rw [(State.takesWants_iff s).mpr (.inr hn)]; exact Bool.false_ne_true
    refine ⟨fun h hb => ?_, fun h hb => ?_, fun d h hb => ?_, fun p a b h1 h15 hb ha hb' => ⟨fun h => ?_, fun h => ?_⟩⟩
    · rw [exec_cabClaim, execCabClaim, serve_ready _ h (parseNothing_of_eq_nil hb), if_neg hw, finish_queueWant h hn]
    · rw [exec_cabRelease, execCabRelease, serve_ready _ h (parseNothing_of_eq_nil hb), if_neg hw, finish_queueWant h hn]
    · rw [exec_heading, execHeading, serve_ready _ h hb, if_neg hw, finish_queueWant h hn]
    · have hr : ¬ (decide (p.toNat = 0) || decide (15 < p.toNat)) = true := by simp; omega
      rw [exec_split, execSplit, serve_ready (a := p.toNat) _ h (by rw [hb]; rfl), if_neg hw, if_neg hr,
        State.queueJoint, jointTags_of_entries ha hb', finish_queueWant h hn]
    · have hr : ¬ (decide (p.toNat = 0) || decide (15 < p.toNat)) = true := by simp; omega
      rw [exec_splitCancel, execSplitCancel, serve_ready (a := p.toNat) _ h (by rw [hb]; rfl), if_neg hw, if_neg hr,
        State.queueJoint, jointTags_of_entries ha hb', finish_queueWant h hn]
  · have hw : ¬ (!s.takesWants) = true := by rw [(State.takesWants_iff s).mpr (.inr hn)]; exact Bool.false_ne_true
    have hr : ¬ (decide (p.toNat = 0) || decide (15 < p.toNat)) = true := by simp; omega
    let x := ((s.dropWant .split none).notify rankOutcome (.splitOutcome .split (.answer .badJoint none))).reply f
      .accepted .empty
    have hx : exec .split s = finish s x := by
      rw [exec_split, execSplit, serve_ready (a := p.toNat) _ h (by rw [hb]; rfl), if_neg hw, if_neg hr,
        State.queueJoint, jointTags_of_none hnone]
    have ho : x.outbox = [(rankOutcome, .splitOutcome .split (.answer .badJoint none))] :=
      congrArg (· ++ [_]) h.2.1
    refine ⟨_, hx, settle_replies rfl, ?_, settle_queues_only ho (by decide) rfl, ?_, ?_⟩
    · rw [State.wantOf_congr (settle_pet s x)]
      exact s.wantOf_dropWant .split none
    · rw [settle_form]; rfl
    · rw [settle_timer]; rfl

/-! ## Answers -/

theorem State.ownTag_congr {s t : State} (h : t.store = s.store) : t.ownTag = s.ownTag := by
  rw [State.ownTag, State.ownTag, h]

theorem answerTo_isOwn (target own : Tag) (k : WantKind) (e : Option EndId) (o : AnswerOutcome) (r : Option Reason) :
    (answerTo target k e o r).isOwn own = (target == own) := Bool.and_true _

/-- An answer to the leader's own want is delivered at once (R91, R96). -/
theorem State.answer_own {s : State} {a : Answer} (h : a.isOwn s.ownTag = true) :
    s.answer a = s.deliver a.kind a.wantEnd a.outcome a.reason := if_pos h

/-- An answer to another car joins the queue, where there is room (R96). -/
theorem State.answer_push {s : State} {a : Answer} (h : a.isOwn s.ownTag = false) (hl : s.pet.answers.length < 16) :
    s.answer a = s.pushAnswer a := by
  have hn : ¬ Config.answerSize ≤ s.pet.answers.length := Nat.not_le.mpr hl
  rw [State.answer, if_neg (by rw [h]; exact Bool.false_ne_true)]
  simp only [if_neg hn]

theorem State.hasRoom_own {s : State} {a : Answer} (h : a.isOwn s.ownTag = true) (hl : s.pet.answers.length ≤ 16) :
    s.hasRoom [a] = true := by
  simp [State.hasRoom, State.placesFor, h, Config.answerSize, hl]

theorem State.hasRoom_one {s : State} {a : Answer} (hl : s.pet.answers.length < 16) : s.hasRoom [a] = true := by
  have hf : ([a].filter fun a : Answer => !a.isOwn s.ownTag).length ≤ 1 := List.length_filter_le _ [a]
  exact decide_eq_true (show s.pet.answers.length + _ ≤ 16 by unfold State.placesFor; omega)

theorem State.answered_of_room {s : State} {as : List Answer} (h : s.hasRoom as = true) (g : State → State) :
    s.answered as g = some (as.foldl State.answer (g s)) := if_pos h

/-- A want of the leader's own car, decided by the arbiter, is answered at once (R91, R97). -/
theorem State.takeDecided_own {s : State} {k : WantKind} {d : State × AnswerOutcome} (hl : s.pet.answers.length ≤ 16)
    (hd : d.1.store = s.store) : s.takeDecided s.ownTag k d = some (d.1.deliver k none d.2 none) := by
  have ho : (answerTo s.ownTag k none d.2 none).isOwn s.ownTag = true := by rw [answerTo_isOwn, beq_self_eq_true]
  unfold State.takeDecided
  rw [State.answered_of_room (State.hasRoom_own ho hl)]
  exact congrArg some (State.answer_own (by rw [State.ownTag_congr hd]; exact ho))

/-- Settles O30: the queued claim is decided at once, and its answer, the leader's own, delivered. -/
theorem leaderClaimsItsCab : Obligations.LeaderClaimsItsCab := by
  intro s f h hb hn hcab hh hl
  have hw : ¬ (!s.takesWants) = true := by rw [(State.takesWants_iff s).mpr (.inl hn)]; exact Bool.false_ne_true
  let s1 : State := { s with pet := { s.pet with queue := putWant .cabClaim s.pet.queue } }
  let s2 : State := { s1 with pet := { s1.pet with holder := some s.ownTag, cabHeading := .none } }
  have hd : s1.decideClaim s1.ownTag = (s2, .granted) := by
    have hc : (entryOf s1.entries s1.ownTag).any Entry.cab = true := hcab
    have hh1 : s1.pet.holder = none := hh
    rw [State.decideClaim, if_neg (by simp [hc]), hh1]
    rfl
  have hq : s.queueWant .cabClaim = (s2.dropWant .cabClaim none).notify rankCab (.cab .granted) := by
    rw [State.queueWant_of_lead _ hn]
    show (s1.takeDecided s1.ownTag .cabClaim (s1.decideClaim s1.ownTag)).getD s1 = _
    rw [hd, State.takeDecided_own (s := s1) hl rfl]
    rfl
  have hx : exec .cabClaim s = finish s (((s2.dropWant .cabClaim none).notify rankCab (.cab .granted)).reply f .accepted
      .empty) := by
    rw [exec_cabClaim, execCabClaim, serve_ready _ h (parseNothing_of_eq_nil hb), if_neg hw, hq]
  have ho : (((s2.dropWant .cabClaim none).notify rankCab (.cab .granted)).reply f .accepted .empty).outbox =
      [(rankCab, .cab .granted)] := congrArg (· ++ [_]) h.2.1
  refine ⟨_, hx, ?_, ?_, ?_, ?_, settle_queues_only ho (by decide) rfl, ?_, ?_⟩
  · rw [settle_pet]; rfl
  · rw [settle_pet]; rfl
  · rw [State.wantOf_congr (settle_pet s _)]
    exact s2.wantOf_dropWant .cabClaim none
  · rw [settle_pet]; rfl
  · rw [settle_form]; rfl
  · rw [settle_timer]; rfl

/-! ## The store -/

/-- A step that begins a store operation and replies (R165). -/
theorem finish_beginOp {s : State} {f : Frame} {k : Octet} (h : Ready s f k) (kind : StoreOpKind) (c : StoreContents)
    (o : Outcome) (b : ReplyBody) :
    finish s ((s.beginOp kind c).reply f o b) = .next ((s.beginOp kind c).replied f o b) :=
  finish_reply_same s (s.beginOp kind c) f o b rfl rfl rfl rfl h.2.1 h.2.2.2.2.1

/-- Settles O32. -/
theorem settingsWriteJudged : Obligations.SettingsWriteJudged := by
  intro s f a fs h hp
  have hx := serve_ready (fun (a : AreaId × List NamedField) f s =>
    if s.store.op.isSome then s.reply f .busy .empty
    else if s.store.readProtect a.1 then s.reply f .protected_ .empty
    else match a.1 with
      | .identity =>
        if s.form.node ≠ .detached then s.reply f .wrongState .empty
        else match writeIdentity s.store.readIdentity a.2 with
          | some c =>
            let p := s.store.readProtect .identity
            (s.beginOp .write (.identity c p)).reply f .accepted (.writtenIdentity c p)
          | none => s.reply f .badArgument .empty
      | .service =>
        match writeService s.store.readService a.2 with
        | some c =>
          let p := s.store.readProtect .service
          (s.beginOp .write (.service c p)).reply f .accepted (.writtenService c p (serviceMarkers a.2))
        | none => s.reply f .badArgument .empty) h hp
  have hx : exec .settingsWrite s = _ := (exec_settingsWrite s).trans hx
  have free : s.store.op = none → ¬ s.store.op.isSome = true := fun hop => by simp [hop]
  have open_ : s.store.readProtect a = false → ¬ s.store.readProtect a = true := fun hr => by simp [hr]
  refine ⟨fun hop => ?_, fun hop hr => ?_, fun hop hr ha hn => ?_, fun hop hr ha hn => ?_, fun hop hr ha => ?_⟩
  · rw [hx, if_pos (Option.isSome_iff_ne_none.mpr hop), finish_reply_self h]
  · rw [hx, if_neg (free hop), if_pos hr, finish_reply_self h]
  · rw [hx, if_neg (free hop), if_neg (open_ hr)]
    subst ha
    rw [if_pos hn, finish_reply_self h]
  · rw [hx, if_neg (free hop), if_neg (open_ hr)]
    subst ha
    rw [if_neg (not_not.mpr hn)]
    cases writeIdentity s.store.readIdentity fs with
    | none => exact finish_reply_self h _ _
    | some c =>
      rw [hr]
      exact finish_beginOp h _ _ _ _
  · rw [hx, if_neg (free hop), if_neg (open_ hr)]
    subst ha
    cases writeService s.store.readService fs with
    | none => exact finish_reply_self h _ _
    | some c =>
      rw [hr]
      exact finish_beginOp h _ _ _ _

/-- A protect operation on an area that has values begins (R171). -/
theorem finish_protect {s : State} {f : Frame} {k : Octet} (h : Ready s f k) {a : AreaId} {on : Bool} {c : StoreContents}
    (hc : s.store.protectContents on a = some c) :
    finish s (s.protect f a on) = .next ((s.beginOp .protect c).replied f .done .empty) := by
  rw [State.protect, hc]
  exact finish_beginOp h _ _ _ _

/-- An area that reads protected is GOOD, so its values are its contents (R164). -/
theorem Store.good_of_readProtect {st : Store} {a : AreaId} (h : st.readProtect a = true) : match a with
    | .identity => st.identity.good = true
    | .service => st.service.good = true := by
  cases a <;> exact (Bool.and_eq_true_iff.mp h).1

/-- Settles O34. -/
theorem settingsProtectJudged : Obligations.SettingsProtectJudged := by
  intro s f a on h hp
  have hx := serve_ready (fun (a : AreaId × Bool) f s =>
    if s.store.op.isSome then s.reply f .busy .empty
    else if a.2 = s.store.readProtect a.1 then s.reply f .done .empty
    else if a.2 then s.protect f a.1 true
    else if s.form.node = .detached && s.e1.contact = .opened && s.e2.contact = .opened then s.protect f a.1 false
    else s.reply f .wrongState .empty) h hp
  have hx : exec .settingsProtect s = _ := (exec_settingsProtect s).trans hx
  have free : s.store.op = none → ¬ s.store.op.isSome = true := fun hop => by simp [hop]
  refine ⟨fun hop => ?_, fun hop hr => ?_, fun hop hr hon ha => ?_, fun hop hr hon ha => ?_, fun hop hr hon => ?_⟩
  · rw [hx, if_pos (Option.isSome_iff_ne_none.mpr hop), finish_reply_self h]
  · rw [hx, if_neg (free hop), if_pos hr.symm, finish_reply_self h]
  · rw [hx, if_neg (free hop), if_neg (by rw [hr, hon]; exact Bool.true_eq_false_eq_False), if_pos hon]
    subst ha
    exact finish_protect h rfl
  · rw [hx, if_neg (free hop), if_neg (by rw [hr, hon]; exact Bool.true_eq_false_eq_False), if_pos hon]
    subst ha
    cases hg : s.store.identity.good with
    | true => exact finish_protect h (by simp [Store.protectContents, Store.readIdentity, hg])
    | false =>
      have hc : s.store.protectContents true .identity = none := by simp [Store.protectContents, Store.readIdentity, hg]
      rw [State.protect, hc]
      exact finish_reply_self h _ _
  · rw [hx, if_neg (free hop), if_neg (by rw [hr, hon]; exact Bool.false_ne_true), if_neg (by rw [hon]; exact Bool.false_ne_true)]
    have hcond : (decide (s.form.node = .detached) && decide (s.e1.contact = .opened) &&
        decide (s.e2.contact = .opened)) = true ↔
        s.form.node = .detached ∧ s.e1.contact = .opened ∧ s.e2.contact = .opened := by
      simp [and_assoc]
    have hgood := Store.good_of_readProtect hr
    by_cases hc : s.form.node = .detached ∧ s.e1.contact = .opened ∧ s.e2.contact = .opened
    · rw [if_pos (hcond.mpr hc), if_pos hc]
      cases a with
      | identity => exact finish_protect h (by simp [Store.protectContents, Store.readIdentity, hgood])
      | service => exact finish_protect h (by simp [Store.protectContents, Store.readService, hgood])
    · rw [if_neg fun hd => hc (hcond.mp hd), if_neg hc, finish_reply_self h]

theorem clamp_bounds (lo hi v : Nat) (h : lo ≤ hi) :
    clamp lo hi v = if v < lo then lo else if hi < v then hi else v := by
  unfold clamp
  split
  · omega
  · split <;> omega

/-- A numeric setting written is clamped to its range; one that is not named is kept (R167, R168). -/
theorem written_clamp (fs : List NamedField) (code lo hi kept : Nat) (h : lo ≤ hi) :
    written fs code (clamp lo hi) kept = (match numberOf fs code with
      | some v => if v < lo then lo else if hi < v then hi else v
      | none => kept) := by
  unfold written
  cases numberOf fs code with
  | none => rfl
  | some v => exact clamp_bounds lo hi v h

theorem clampPeriod_spec (v : Nat) : 2000 ≤ clampPeriod v ∧ clampPeriod v ≤ 20000 ∧ clampPeriod v % 100 = 0
    ∧ (2000 ≤ v → v ≤ 20000 → clampPeriod v ≤ v ∧ v < clampPeriod v + 100)
    ∧ (v < 2000 → clampPeriod v = 2000) ∧ (20000 < v → clampPeriod v = 20000) := by
  unfold clampPeriod
  rw [clamp_bounds _ _ _ (by decide)]
  split
  · omega
  · split <;> omega

theorem clampInterval_spec (v : Nat) : clampInterval v ∈ [250, 1000, 2000, 4000] ∧ (250 ≤ v → clampInterval v ≤ v)
    ∧ (∀ m ∈ [250, 1000, 2000, 4000], m ≤ v → m ≤ clampInterval v) ∧ (v < 250 → clampInterval v = 250) := by
  unfold clampInterval
  split
  · exact ⟨by decide, fun _ => by omega, by simp, fun _ => by omega⟩
  · split
    · exact ⟨by decide, fun _ => by omega, by simp; omega, fun _ => by omega⟩
    · split
      · exact ⟨by decide, fun _ => by omega, by simp; omega, fun _ => by omega⟩
      · exact ⟨by decide, fun _ => by omega, by simp; omega, fun _ => rfl⟩

/-- Settles O33. -/
theorem settingsClamped : Obligations.SettingsClamped := by
  refine ⟨clampPeriod_spec, clampInterval_spec, fun old sv fs h => ?_⟩
  obtain ⟨chs, -, rfl⟩ := Option.map_eq_some_iff.mp h
  exact ⟨rfl, rfl, written_clamp fs 17 2 50 _ (by decide), written_clamp fs 18 2 16 _ (by decide),
    written_clamp fs 19 2 16 _ (by decide), written_clamp fs 20 1 15 _ (by decide), written_clamp fs 22 2 15 _ (by decide),
    written_clamp fs 23 10 250 _ (by decide)⟩

theorem State.joinNotice_serviceDefaulted (s : State) (b : NoticeBody) :
    (s.joinNotice b).link.flags.serviceDefaulted = s.link.flags.serviceDefaulted := by
  unfold State.joinNotice State.joinTail
  dsimp only
  split
  · rfl
  · split <;> rfl

/-- The end of a step sets no flag but EVENTS_LOST. -/
theorem settle_serviceDefaulted (b x : State) :
    (State.settle b x).link.flags.serviceDefaulted = x.link.flags.serviceDefaulted := by
  have fold : ∀ (bs : List NoticeBody) (y : State),
      (bs.foldl State.joinNotice y).link.flags.serviceDefaulted = y.link.flags.serviceDefaulted := by
    intro bs
    induction bs with
    | nil => intro y; rfl
    | cons c bs ih => intro y; rw [List.foldl_cons, ih, State.joinNotice_serviceDefaulted]
  rw [settle_link]
  unfold State.beginFrame
  repeat' split
  all_goals exact fold _ _

/-- Settles O35. -/
theorem storeOperationCompletes : Obligations.StoreOperationCompletes := by
  intro s op k hp ho hop
  let u := s.advanceTo (min (s.now + k) (op.begun + Config.storeOpTicks))
  let x := ({ u with store := u.store.completed op } : State).notify rankOther (.storeDone op.area op.kind .done)
  have hx : exec (.storeOperationEnd k) s = finish u x := by
    rw [exec_storeOperationEnd, execStoreOperationEnd, whenPowered_of_powered hp, hop]
  have hst : u.store = s.store := State.advance_store _ _
  have hout : x.outbox = [(rankOther, .storeDone op.area op.kind .done)] :=
    congrArg (· ++ [_]) ((State.advance_outbox _ _).trans ho)
  have hxs : x.store = s.store.completed op := congrArg (Store.completed op) hst
  refine ⟨_, hx, ?_, ?_, fun c p hc => ?_, fun c p hc => ?_, settle_queues_only hout (by decide) rfl, ?_, ?_, ?_⟩
  · rw [settle_store, hxs, Store.completed]
    cases op.contents <;> rfl
  · rw [settle_store, hxs, Store.completed]
    cases op.contents <;> rfl
  · rw [settle_store, hxs, Store.completed, hc]
    exact ⟨rfl, rfl⟩
  · rw [settle_store, hxs, Store.completed, hc]
    exact ⟨rfl, rfl⟩
  · rw [settle_chan]; exact State.advance_chan _ _
  · rw [settle_planner]; exact State.advance_planner _ _
  · rw [settle_serviceDefaulted]
    exact congrArg (fun l => l.flags.serviceDefaulted) (State.advance_link _ _)

end Sys2Proof.Machine
end

section
/-! PROOFS. The planner: cells of a plan, and granted rates (R69 to R77). -/

namespace Sys2Proof.Machine

open Sys2Proof

/-! ## Cells of the three passes -/

/-- A cell's place in the round. -/
def PlanCell.place (c : PlanCell) : Nat × Nat := (c.slot, c.index)

theorem map_zipIdx_snd {α β : Type} (l : List α) (g : Nat → β) :
    (l.zipIdx.map fun p => g p.2) = (List.range l.length).map g := by
  have h : l.zipIdx.map Prod.snd = List.range l.length := by
    rw [List.zipIdx_map_snd, List.range_eq_range']
  rw [← h, List.map_map]
  rfl

/-- The places of the first pass, by channel (R74). -/
theorem placeEvery_places (refs : List ChannelRef) : (placeEvery refs).map PlanCell.place =
    (List.range (ofRate .every refs).length).flatMap fun k => (List.range 4).map fun i => (5 + k, i) := by
  unfold placeEvery
  rw [List.map_flatten, List.map_map, List.flatMap,
    ← map_zipIdx_snd (ofRate .every refs) fun k => (List.range 4).map fun i => (5 + k, i)]
  refine congrArg List.flatten (List.map_congr_left fun p _ => ?_)
  rw [Function.comp, List.map_map]
  rfl

/-- The places of the second pass, by channel (R75). -/
theorem placeAlternate_places (e : Nat) (refs : List ChannelRef) : (placeAlternate e refs).map PlanCell.place =
    (List.range (ofRate .alternate refs).length).flatMap fun j => [(5 + e + j / 2, j % 2), (5 + e + j / 2, j % 2 + 2)] := by
  unfold placeAlternate
  rw [List.map_flatten, List.map_map, List.flatMap,
    ← map_zipIdx_snd (ofRate .alternate refs) fun j => [(5 + e + j / 2, j % 2), (5 + e + j / 2, j % 2 + 2)]]
  rfl

/-- The places of the third pass, by channel (R76). -/
theorem placeQuarter_places (e a : Nat) (refs : List ChannelRef) : (placeQuarter e a refs).map PlanCell.place =
    (List.range (ofRate .quarter refs).length).map (freeCell e a) := by
  unfold placeQuarter
  rw [List.map_map, ← map_zipIdx_snd (ofRate .quarter refs) (freeCell e a)]
  rfl

theorem mem_everyPlaces {n : Nat} {x : Nat × Nat} :
    x ∈ ((List.range n).flatMap fun k => (List.range 4).map fun i => (5 + k, i)) ↔
      ∃ k < n, x.1 = 5 + k ∧ x.2 < 4 := by
  simp only [List.mem_flatMap, List.mem_range, List.mem_map]
  constructor
  · rintro ⟨k, hk, i, hi, rfl⟩
    exact ⟨k, hk, rfl, hi⟩
  · rintro ⟨k, hk, h1, h2⟩
    exact ⟨k, hk, x.2, h2, Prod.ext h1.symm rfl⟩

theorem mem_alternatePlaces {e n : Nat} {x : Nat × Nat} :
    x ∈ ((List.range n).flatMap fun j => [(5 + e + j / 2, j % 2), (5 + e + j / 2, j % 2 + 2)]) ↔
      ∃ j < n, x.1 = 5 + e + j / 2 ∧ (x.2 = j % 2 ∨ x.2 = j % 2 + 2) := by
  simp only [List.mem_flatMap, List.mem_range, List.mem_cons, List.not_mem_nil, or_false]
  refine exists_congr fun j => and_congr_right fun _ => ?_
  constructor
  · rintro (rfl | rfl)
    · exact ⟨rfl, .inl rfl⟩
    · exact ⟨rfl, .inr rfl⟩
  · rintro ⟨h1, h2 | h2⟩
    · exact .inl (Prod.ext h1 h2)
    · exact .inr (Prod.ext h1 h2)

theorem everyPlaces_nodup (n : Nat) :
    ((List.range n).flatMap fun k => (List.range 4).map fun i => (5 + k, i)).Nodup := by
  rw [List.nodup_flatMap]
  refine ⟨fun k _ => List.nodup_range.map fun i j h => (Prod.ext_iff.mp h).2,
    List.nodup_range.imp_of_mem fun {a b} _ _ hab => ?_⟩
  rw [Function.onFun, List.disjoint_left]
  simp only [List.mem_map, List.mem_range]
  rintro x ⟨i, _, rfl⟩ ⟨j, _, h⟩
  have := congrArg Prod.fst h
  simp only at this
  omega

theorem alternatePlaces_nodup (e n : Nat) :
    ((List.range n).flatMap fun j => [(5 + e + j / 2, j % 2), (5 + e + j / 2, j % 2 + 2)]).Nodup := by
  rw [List.nodup_flatMap]
  refine ⟨fun j _ => by simp, List.nodup_range.imp_of_mem fun {a b} _ _ hab => ?_⟩
  rw [Function.onFun, List.disjoint_left]
  simp only [List.mem_cons, List.not_mem_nil, or_false]
  rintro x hx hy
  have h1 : x.1 = 5 + e + a / 2 ∧ (x.2 = a % 2 ∨ x.2 = a % 2 + 2) := by rcases hx with rfl | rfl <;> simp
  have h2 : x.1 = 5 + e + b / 2 ∧ (x.2 = b % 2 ∨ x.2 = b % 2 + 2) := by rcases hy with rfl | rfl <;> simp
  omega

theorem freeCell_odd {e a h : Nat} (ha : a % 2 = 1) : freeCell e a h =
    if h < 2 then (5 + e + (a - 1) / 2, 2 * h + 1) else (5 + e + (a + 1) / 2 + (h - 2) / 4, (h - 2) % 4) := if_pos ha

theorem freeCell_even {e a h : Nat} (ha : a % 2 ≠ 1) : freeCell e a h = (5 + e + a / 2 + h / 4, h % 4) := if_neg ha

/-- The free cells of the third pass come one after the other (R76). -/
theorem freeCell_injective (e a : Nat) : Function.Injective (freeCell e a) := by
  intro h k heq
  have h1 := congrArg Prod.fst heq
  have h2 := congrArg Prod.snd heq
  by_cases ha : a % 2 = 1
  · rw [freeCell_odd ha, freeCell_odd ha] at h1 h2
    split at h1 <;> split at h1 <;> simp_all <;> omega
  · rw [freeCell_even ha, freeCell_even ha] at h1 h2
    simp only at h1 h2
    omega

/-- A free cell lies behind the slots of the first pass. -/
theorem freeCell_slot (e a h : Nat) : 5 + e ≤ (freeCell e a h).1 := by
  by_cases ha : a % 2 = 1
  · rw [freeCell_odd ha]
    split <;> simp only <;> omega
  · rw [freeCell_even ha]
    simp only
    omega

/-- A free cell is none that the second pass takes (R76). -/
theorem freeCell_not_alternate {e a h j : Nat} (hj : j < a) (h1 : (freeCell e a h).1 = 5 + e + j / 2)
    (h2 : (freeCell e a h).2 = j % 2 ∨ (freeCell e a h).2 = j % 2 + 2) : False := by
  by_cases ha : a % 2 = 1
  · rw [freeCell_odd ha] at h1 h2
    split at h1 <;> simp_all <;> omega
  · rw [freeCell_even ha] at h1 h2
    simp only at h1 h2
    omega

theorem placeAll_nodup (ens : List Entry) : ((placeAll ens).map PlanCell.place).Nodup := by
  unfold placeAll
  dsimp only
  rw [List.map_append, List.map_append, placeEvery_places, placeAlternate_places, placeQuarter_places]
  generalize (ofRate .every (channelOrder ens)).length = e
  generalize (ofRate .alternate (channelOrder ens)).length = a
  generalize (ofRate .quarter (channelOrder ens)).length = q
  refine List.nodup_append'.mpr ⟨List.nodup_append'.mpr ⟨everyPlaces_nodup e, alternatePlaces_nodup e a, ?_⟩,
    List.nodup_range.map (freeCell_injective e a), ?_⟩
  · rw [List.disjoint_left]
    intro x hx hy
    obtain ⟨k, hk, h1, -⟩ := mem_everyPlaces.mp hx
    obtain ⟨j, -, h2, -⟩ := mem_alternatePlaces.mp hy
    omega
  · rw [List.disjoint_left]
    intro x hx hy
    obtain ⟨h, -, rfl⟩ := List.mem_map.mp hy
    rcases List.mem_append.mp hx with hx | hx
    · obtain ⟨k, hk, h1, -⟩ := mem_everyPlaces.mp hx
      have := freeCell_slot e a h
      omega
    · obtain ⟨j, hj, h1, h2⟩ := mem_alternatePlaces.mp hx
      exact freeCell_not_alternate hj h1 h2

/-- Settles O9: the passes take different places, and a plan keeps some of them. -/
theorem planCellsHaveOneOwner : Obligations.PlanCellsHaveOneOwner := fun t _ =>
  (placeAll_nodup t.entries).sublist (List.filter_sublist.map PlanCell.place)

/-! ## A fitting table -/

theorem sum_flatten_map {α : Type} (f : α → Nat) (ls : List (List α)) :
    (ls.flatten.map f).sum = (ls.map fun l => (l.map f).sum).sum := by
  rw [List.map_flatten, List.sum_flatten, List.map_map]
  rfl

/-- The demand of a table, summed over its channels in channel order. -/
theorem grantedDemand_eq (ens : List Entry) :
    grantedDemand ens = ((channelOrder ens).map fun r => r.desc.granted.weight).sum := by
  have one : ∀ en : Entry, en.demand = (en.refs.map fun r => r.desc.granted.weight).sum := by
    intro en
    have h : en.channels.zipIdx.map Prod.fst = en.channels := List.zipIdx_map_fst _ _
    rw [Entry.demand, Entry.refs, List.map_map]
    conv_lhs => rw [← h, List.map_map]
    rfl
  rw [channelOrder, sum_flatten_map, List.map_map, grantedDemand]
  exact congrArg List.sum (List.map_congr_left fun en _ => one en)

theorem weights_sum (refs : List ChannelRef) : (refs.map fun r => r.desc.granted.weight).sum =
    4 * (ofRate .every refs).length + 2 * (ofRate .alternate refs).length + (ofRate .quarter refs).length := by
  induction refs with
  | nil => rfl
  | cons r rs ih =>
    rw [List.map_cons, List.sum_cons, ih]
    simp only [ofRate, List.filter_cons]
    cases h : r.desc.granted <;> simp [Rate.weight] <;> omega

theorem freeCell_fits {e a q h c : Nat} (hq : h < q) (hc : 4 * e + 2 * a + q ≤ 4 * (c - 5)) : (freeCell e a h).1 < c := by
  by_cases ha : a % 2 = 1
  · rw [freeCell_odd ha]
    split <;> simp only <;> omega
  · rw [freeCell_even ha]
    simp only
    omega

/-- Settles O10: the passes fill the channel slots from the first on, so what fits is behind none. -/
theorem fittingTableIsPlacedWhole : Obligations.FittingTableIsPlacedWhole := by
  intro t period hd
  rw [grantedDemand_eq, weights_sum, roundCapacity, channelSlots] at hd
  show (placeAll t.entries).filter _ = _
  rw [List.filter_eq_self]
  intro c hc
  rw [decide_eq_true_eq]
  have hp : c.place ∈ (placeAll t.entries).map PlanCell.place := List.mem_map_of_mem hc
  unfold placeAll at hp
  dsimp only at hp
  rw [List.map_append, List.map_append, placeEvery_places, placeAlternate_places, placeQuarter_places] at hp
  rcases List.mem_append.mp hp with hp | hp
  · rcases List.mem_append.mp hp with hp | hp
    · obtain ⟨k, hk, h1, -⟩ := mem_everyPlaces.mp hp
      have h1 : c.slot = 5 + k := h1
      omega
    · obtain ⟨j, hj, h1, -⟩ := mem_alternatePlaces.mp hp
      have h1 : c.slot = _ := h1
      omega
  · obtain ⟨h, hh, heq⟩ := List.mem_map.mp hp
    have h1 : (freeCell _ _ h).1 = c.slot := congrArg Prod.fst heq
    rw [← h1]
    exact freeCell_fits (List.mem_range.mp hh) hd

/-! ## Granted rates -/

/-- The class of a channel and its requested rate, which no granting changes. -/
def ChannelDesc.asked (c : ChannelDesc) : ChannelClass × Rate := (c.cls, c.requested)

theorem safetyDemand_congr {xs ys : List Entry}
    (h : xs.map (fun en => en.channels.map ChannelDesc.asked) = ys.map fun en => en.channels.map ChannelDesc.asked) :
    safetyDemand xs = safetyDemand ys := by
  have one : ∀ en : Entry, en.safetyDemand =
      ((en.channels.map ChannelDesc.asked).map fun p => if p.1 = .safety then p.2.weight else 0).sum := by
    intro en
    rw [List.map_map]
    rfl
  have all : ∀ zs : List Entry, safetyDemand zs = ((zs.map fun en => en.channels.map ChannelDesc.asked).map fun l =>
      (l.map fun p => if p.1 = .safety then p.2.weight else 0).sum).sum := by
    intro zs
    rw [List.map_map]
    exact congrArg List.sum (List.map_congr_left fun en _ => one en)
  rw [all, all, h]

/-- Every channel is granted no more than it asks for. -/
def GrantedWithinAsked (ens : List Entry) : Prop :=
  ∀ en ∈ ens, ∀ c ∈ en.channels, c.granted.weight ≤ c.requested.weight

theorem Rate.lower_weight (r : Rate) : r.lower.weight ≤ r.weight := by cases r <;> decide

theorem Rate.lower_weight_lt {r : Rate} (h : r ≠ .suspended) : r.lower.weight < r.weight := by
  cases r <;> first | decide | exact absurd rfl h

/-- An entry with one channel lowered one step. -/
def Entry.lowered (ch : Nat) (en : Entry) : Entry := { en with
  channels := en.channels.zipIdx.map fun p => if p.2 = ch then { p.1 with granted := p.1.granted.lower } else p.1 }

theorem lowerChannel_eq (ens : List Entry) (r : ChannelRef) :
    lowerChannel ens r = ens.map fun en => if en.position = r.position then en.lowered r.channel else en := rfl

theorem Entry.lowered_asked (ch : Nat) (en : Entry) :
    (en.lowered ch).channels.map ChannelDesc.asked = en.channels.map ChannelDesc.asked := by
  have h : en.channels.zipIdx.map Prod.fst = en.channels := List.zipIdx_map_fst _ _
  conv_rhs => rw [← h, List.map_map]
  rw [Entry.lowered, List.map_map]
  refine List.map_congr_left fun p _ => ?_
  simp only [Function.comp]
  split <;> rfl

theorem lowerChannel_asked (ens : List Entry) (r : ChannelRef) :
    (lowerChannel ens r).map (fun en => en.channels.map ChannelDesc.asked) =
      ens.map fun en => en.channels.map ChannelDesc.asked := by
  rw [lowerChannel_eq, List.map_map]
  refine List.map_congr_left fun en _ => ?_
  simp only [Function.comp]
  split
  · exact en.lowered_asked r.channel
  · rfl

theorem lowerChannel_within {ens : List Entry} (r : ChannelRef) (h : GrantedWithinAsked ens) :
    GrantedWithinAsked (lowerChannel ens r) := by
  intro en hen c hc
  rw [lowerChannel_eq] at hen
  obtain ⟨en0, hen0, rfl⟩ := List.mem_map.mp hen
  split at hc
  · obtain ⟨p, hp, rfl⟩ := List.mem_map.mp hc
    have hw := h en0 hen0 p.1 (List.fst_mem_of_mem_zipIdx hp)
    split
    · exact (Rate.lower_weight _).trans hw
    · exact hw
  · exact h en0 hen0 c hc

theorem Entry.demand_zipIdx (en : Entry) : en.demand = (en.channels.zipIdx.map fun p => p.1.granted.weight).sum := by
  have h : en.channels.zipIdx.map Prod.fst = en.channels := List.zipIdx_map_fst _ _
  rw [Entry.demand]
  conv_lhs => rw [← h, List.map_map]
  rfl

theorem Entry.lowered_demand (ch : Nat) (en : Entry) : (en.lowered ch).demand =
    (en.channels.zipIdx.map fun p => if p.2 = ch then p.1.granted.lower.weight else p.1.granted.weight).sum := by
  rw [Entry.demand, Entry.lowered, List.map_map]
  refine congrArg List.sum (List.map_congr_left fun p _ => ?_)
  simp only [Function.comp]
  split <;> rfl

theorem Entry.lowered_demand_le (ch : Nat) (en : Entry) : (en.lowered ch).demand ≤ en.demand := by
  rw [Entry.lowered_demand, Entry.demand_zipIdx]
  refine List.sum_le_sum fun p _ => ?_
  split
  · exact Rate.lower_weight _
  · exact le_rfl

/-- A lowered channel saves at least one cell a round. -/
theorem Entry.lowered_demand_lt {en : Entry} {c : ChannelDesc} {ch : Nat} (h : (c, ch) ∈ en.channels.zipIdx)
    (hc : c.granted ≠ .suspended) : (en.lowered ch).demand < en.demand := by
  rw [Entry.lowered_demand, Entry.demand_zipIdx]
  refine List.sum_lt_sum _ _ (fun p _ => ?_) ⟨(c, ch), h, ?_⟩
  · split
    · exact Rate.lower_weight _
    · exact le_rfl
  · rw [if_pos rfl]
    exact Rate.lower_weight_lt hc

theorem lowerChannel_demand_lt {ens : List Entry} {r : ChannelRef} (hr : r ∈ channelOrder ens)
    (hs : r.desc.granted ≠ .suspended) : grantedDemand (lowerChannel ens r) < grantedDemand ens := by
  obtain ⟨refs, hrefs, hr⟩ := List.mem_flatten.mp hr
  obtain ⟨en, hen, rfl⟩ := List.mem_map.mp hrefs
  obtain ⟨p, hp, rfl⟩ := List.mem_map.mp hr
  rw [lowerChannel_eq, grantedDemand, List.map_map, grantedDemand]
  refine List.sum_lt_sum _ _ (fun x _ => ?_) ⟨en, hen, ?_⟩
  · simp only [Function.comp]
    split
    · exact x.lowered_demand_le _
    · exact le_rfl
  · simp only [Function.comp, if_pos]
    exact Entry.lowered_demand_lt hp hs

/-- A channel that one step of R73 can lower. -/
def ChannelRef.lowerable (cls : ChannelClass) (r : ChannelRef) : Prop := r.desc.cls = cls ∧ r.desc.granted ≠ .suspended

/-- The better of two channels to lower, the one seen later where they are alike (R73). -/
def betterLowered (cls : ChannelClass) (best : Option ChannelRef) (r : ChannelRef) : Option ChannelRef :=
  if r.desc.cls = cls && r.desc.granted != .suspended then
    match best with
    | none => some r
    | some b => if b.desc.granted.weight ≤ r.desc.granted.weight then some r else best
  else best

theorem pickLowered_eq (cls : ChannelClass) (refs : List ChannelRef) :
    pickLowered cls refs = refs.foldl (betterLowered cls) none := rfl

theorem betterLowered_of_not {cls : ChannelClass} {x : ChannelRef} (best : Option ChannelRef) (h : ¬ x.lowerable cls) :
    betterLowered cls best x = best := by
  refine if_neg fun hc => h ?_
  simpa [ChannelRef.lowerable] using hc

theorem betterLowered_of_lowerable {cls : ChannelClass} {x : ChannelRef} (best : Option ChannelRef) (h : x.lowerable cls) :
    (betterLowered cls best x = some x ∨ betterLowered cls best x = best) ∧ betterLowered cls best x ≠ none := by
  obtain ⟨h1, h2⟩ := h
  unfold betterLowered
  rw [if_pos (by simp [h1, h2])]
  cases best with
  | none => exact ⟨.inl rfl, fun h => by cases h⟩
  | some b =>
    dsimp only
    split
    · exact ⟨.inl rfl, fun h => by cases h⟩
    · exact ⟨.inr rfl, fun h => by cases h⟩

/-- What the search for the channel to lower finds: none only where none is lowerable. -/
theorem pickLowered_fold (cls : ChannelClass) (refs : List ChannelRef) (best : Option ChannelRef) :
    (∀ r, refs.foldl (betterLowered cls) best = some r → best = some r ∨ (r ∈ refs ∧ r.lowerable cls))
    ∧ (refs.foldl (betterLowered cls) best = none → best = none ∧ ∀ r ∈ refs, ¬ r.lowerable cls) := by
  induction refs generalizing best with
  | nil => exact ⟨fun r h => .inl h, fun h => ⟨h, fun r hr => by cases hr⟩⟩
  | cons x xs ih =>
    rw [List.foldl_cons]
    by_cases hl : x.lowerable cls
    · obtain ⟨hcase, hne⟩ := betterLowered_of_lowerable best hl
      obtain ⟨h1, h2⟩ := ih _
      refine ⟨fun r hr => ?_, fun hn => absurd (h2 hn).1 hne⟩
      rcases h1 r hr with h | h
      · rcases hcase with hc | hc
        · obtain rfl : x = r := by rw [hc] at h; injection h
          exact .inr ⟨List.mem_cons_self, hl⟩
        · exact .inl (hc ▸ h)
      · exact .inr ⟨List.mem_cons_of_mem _ h.1, h.2⟩
    · rw [betterLowered_of_not best hl]
      obtain ⟨h1, h2⟩ := ih best
      refine ⟨fun r hr => (h1 r hr).imp id fun h => ⟨List.mem_cons_of_mem _ h.1, h.2⟩, fun hn => ?_⟩
      obtain ⟨hb, hall⟩ := h2 hn
      refine ⟨hb, fun r hr => ?_⟩
      rcases List.mem_cons.mp hr with rfl | hr
      · exact hl
      · exact hall r hr

theorem pickLowered_some {cls : ChannelClass} {refs : List ChannelRef} {r : ChannelRef} (h : pickLowered cls refs = some r) :
    r ∈ refs ∧ r.lowerable cls :=
  ((pickLowered_fold cls refs none).1 r (pickLowered_eq cls refs ▸ h)).resolve_left fun h => by cases h

theorem pickLowered_none {cls : ChannelClass} {refs : List ChannelRef} (h : pickLowered cls refs = none) :
    ∀ r ∈ refs, ¬ r.lowerable cls := ((pickLowered_fold cls refs none).2 h).2

theorem nextLowered_some {ens : List Entry} {r : ChannelRef} (h : nextLowered ens = some r) :
    r ∈ channelOrder ens ∧ r.desc.granted ≠ .suspended := by
  unfold nextLowered at h
  split at h
  · rename_i r' hr
    obtain rfl : r' = r := by injection h
    obtain ⟨hm, hl⟩ := pickLowered_some hr
    exact ⟨hm, hl.2⟩
  · obtain ⟨hm, hl⟩ := pickLowered_some h
    exact ⟨hm, hl.2⟩

/-- With nothing left to lower only SAFETY channels are granted cells. -/
theorem nextLowered_none {ens : List Entry} (h : nextLowered ens = none) :
    ∀ r ∈ channelOrder ens, r.desc.cls = .safety ∨ r.desc.granted = .suspended := by
  unfold nextLowered at h
  split at h
  · cases h
  · rename_i hi
    intro r hr
    have h1 := pickLowered_none hi r hr
    have h2 := pickLowered_none h r hr
    unfold ChannelRef.lowerable at h1 h2
    cases hc : r.desc.cls with
    | safety => exact .inl rfl
    | service => exact .inr (not_not.mp fun hn => h2 ⟨hc, hn⟩)
    | info => exact .inr (not_not.mp fun hn => h1 ⟨hc, hn⟩)

theorem grantedDemand_le_safety {ens : List Entry} (hw : GrantedWithinAsked ens) (h : nextLowered ens = none) :
    grantedDemand ens ≤ safetyDemand ens := by
  have hn := nextLowered_none h
  refine List.sum_le_sum fun en hen => List.sum_le_sum fun c hc => ?_
  obtain ⟨i, hi, rfl⟩ := List.mem_iff_getElem.mp hc
  have hm : ({ position := en.position, channel := i, desc := en.channels[i] } : ChannelRef) ∈ channelOrder ens := by
    refine List.mem_flatten.mpr ⟨en.refs, List.mem_map_of_mem hen, List.mem_map.mpr ⟨(en.channels[i], i), ?_, rfl⟩⟩
    exact List.mem_zipIdx_iff_getElem?.mpr (List.getElem?_eq_getElem hi)
  rcases hn _ hm with hs | hs
  · rw [if_pos hs]
    exact hw en hen _ hc
  · have hz : en.channels[i].granted.weight = 0 := by rw [show en.channels[i].granted = .suspended from hs]; rfl
    rw [hz]
    exact Nat.zero_le _

/-- The lowering loop ends with a table that fits, where its SAFETY demand does; each step saves at least one cell. -/
theorem lowerUntil_fits (fuel cap : Nat) (ens : List Entry) (hw : GrantedWithinAsked ens) (hs : safetyDemand ens ≤ cap)
    (hf : grantedDemand ens ≤ fuel) : grantedDemand (lowerUntil fuel cap ens) ≤ cap := by
  induction fuel generalizing ens with
  | zero =>
    show grantedDemand ens ≤ cap
    omega
  | succ fuel ih =>
    unfold lowerUntil
    split
    · assumption
    · cases hn : nextLowered ens with
      | none => exact (grantedDemand_le_safety hw hn).trans hs
      | some r =>
        obtain ⟨hm, hr⟩ := nextLowered_some hn
        have hlt := lowerChannel_demand_lt hm hr
        exact ih _ (lowerChannel_within r hw) ((safetyDemand_congr (lowerChannel_asked ens r)).trans_le hs) (by omega)

theorem grantRequested_within (ens : List Entry) : GrantedWithinAsked (grantRequested ens) := by
  intro en hen c hc
  obtain ⟨en0, -, rfl⟩ := List.mem_map.mp hen
  obtain ⟨c0, -, rfl⟩ := List.mem_map.mp hc
  exact le_rfl

theorem grantRequested_asked (ens : List Entry) : (grantRequested ens).map (fun en => en.channels.map ChannelDesc.asked) =
    ens.map fun en => en.channels.map ChannelDesc.asked := by
  rw [grantRequested, List.map_map]
  refine List.map_congr_left fun en _ => ?_
  simp only [Function.comp, List.map_map]
  exact List.map_congr_left fun c _ => rfl

/-- Settles O11: the loop goes on while a channel other than a SAFETY one is granted a cell and the demand does not fit. -/
theorem grantedRatesFit : Obligations.GrantedRatesFit := fun _ ens h =>
  lowerUntil_fits _ _ _ (grantRequested_within ens) ((safetyDemand_congr (grantRequested_asked ens)).trans_le h) le_rfl

end Sys2Proof.Machine
end

section
/-! PROOFS. Octet strings, marks and formation entries made and read back (R29, R32, R49, R186, R187). -/

namespace Sys2Proof.Machine

open Sys2Proof

/-! ## Numbers in octets -/

theorem octetsNat_append (xs ys : List Octet) : octetsNat (xs ++ ys) =
    ys.foldl (fun n o => n * 256 + o.toNat) (octetsNat xs) := List.foldl_append

theorem natOctets_length (k v : Nat) : (natOctets k v).length = k := by
  induction k generalizing v with
  | zero => rfl
  | succ k ih => rw [natOctets, List.length_append, ih, List.length_singleton]

/-- A number is read back from its octets as far as they reach (R186). -/
theorem octetsNat_natOctets (k v : Nat) : octetsNat (natOctets k v) = v % 256 ^ k := by
  induction k generalizing v with
  | zero => simp [natOctets, octetsNat, Nat.mod_one]
  | succ k ih =>
    rw [natOctets, octetsNat_append, ih]
    simp only [List.foldl_cons, List.foldl_nil, BitVec.toNat_ofNat, Nat.reducePow]
    rw [Nat.pow_succ', Nat.mod_mul, Nat.add_comm, Nat.mul_comm]

theorem octetsNat_of_lt {k v : Nat} (h : v < 256 ^ k) : octetsNat (natOctets k v) = v := by
  rw [octetsNat_natOctets, Nat.mod_eq_of_lt h]

/-- A bit vector is read back from octets that hold all of it. -/
theorem ofNat_octetsNat {w : Nat} (k : Nat) (x : BitVec w) (h : 2 ^ w = 256 ^ k) :
    BitVec.ofNat w (octetsNat (natOctets k x.toNat)) = x := by
  rw [octetsNat_of_lt (h ▸ x.isLt), BitVec.ofNat_toNat, BitVec.setWidth_eq]

theorem toNat_octet {n : Nat} (h : n < 256) : (BitVec.ofNat 8 n).toNat = n := by
  rw [BitVec.toNat_ofNat]
  exact Nat.mod_eq_of_lt h

/-! ## Records with their checks (R187) -/

theorem sealRecord_length (body : List Octet) : (sealRecord body).length = body.length + 4 := by
  rw [sealRecord, List.length_append, natOctets_length]

theorem recordBody_sealRecord (body : List Octet) : recordBody (sealRecord body) = body := by
  rw [recordBody, sealRecord_length, Nat.add_sub_cancel, sealRecord, List.take_left]

theorem recordCheck_sealRecord (body : List Octet) : recordCheck (sealRecord body) = (crc32 body).toNat := by
  rw [recordCheck, sealRecord_length, Nat.add_sub_cancel, sealRecord, List.drop_left]
  exact octetsNat_of_lt (crc32 body).isLt

/-- A sealed record is good where its kind and length octets agree with it (R187). -/
theorem goodRecordOf_sealRecord {kind : Octet} {body : List Octet} (hk : octetAt (sealRecord body) 0 = kind)
    (hl : (octetAt (sealRecord body) 1).toNat = body.length + 4) (ha : lengthAllowed kind (body.length + 4) = true) :
    goodRecordOf kind (sealRecord body) = true := by
  rw [goodRecordOf, goodRecord, hk, hl, ha, sealRecord_length, recordBody_sealRecord, recordCheck_sealRecord]
  simp

/-! ## Marks -/

/-- The octets of a mark behind its header (11, The mark). -/
def markMiddle (m : MarkFields) : List Octet :=
  natOctets 6 m.leader.toNat ++ [m.epoch, BitVec.ofNat 8 m.n, BitVec.ofNat 8 m.index]
    ++ natOctets 2 m.round.toNat ++ natOctets 2 m.period
    ++ [BitVec.ofNat 8 m.procedure.code, BitVec.ofNat 8 m.countdown, BitVec.ofNat 8 m.cab,
        BitVec.ofNat 8 m.heading.code, flagOctet m.other.isSome]
    ++ natOctets 6 (m.other.getD 0).toNat ++ List.replicate 9 0

theorem markMiddle_length (m : MarkFields) : (markMiddle m).length = 33 := by
  simp [markMiddle, natOctets_length]

theorem goodRecordOf_markRecord (m : MarkFields) (side : Side) : goodRecordOf kindMark (markRecord m side) = true := by
  have hlen : (recordHeader kindMark (3 + (markMiddle m).length + 4) side ++ markMiddle m).length = 36 := by
    rw [List.length_append, markMiddle_length]
    rfl
  refine goodRecordOf_sealRecord (body := recordHeader kindMark (3 + (markMiddle m).length + 4) side ++ markMiddle m) rfl
    ?_ ?_
  · rw [hlen, markMiddle_length]
    rfl
  · rw [hlen]
    rfl

theorem markRecord_header (m : MarkFields) (side : Side) :
    octetAt (markRecord m side) 2 = BitVec.ofNat 8 (128 * side.code) := rfl

theorem recordHop_markRecord (m : MarkFields) (side : Side) : recordHop (markRecord m side) = 0 := by
  rw [recordHop, markRecord_header]
  cases side <;> rfl

theorem recordSide_markRecord (m : MarkFields) (side : Side) : recordSide (markRecord m side) = side := by
  rw [recordSide, markRecord_header]
  cases side <;> rfl

theorem Procedure.ofCode_code (p : Procedure) : Procedure.ofCode p.code = some p := by cases p <;> rfl
theorem Procedure.code_lt (p : Procedure) : p.code < 256 := by cases p <;> decide
theorem Heading.ofCode_code (h : Heading) : Heading.ofCode h.code = some h := by cases h <;> rfl
theorem Heading.code_lt (h : Heading) : h.code < 256 := by cases h <;> decide

/-- The ranges of a mark's fields (R32). -/
theorem MarkFields.ok_bounds {m : MarkFields} (h : m.ok = true) :
    m.n ≤ 16 ∧ m.period ≤ 20000 ∧ m.countdown ≤ 31 ∧ m.cab ≤ m.n ∧ m.index ≤ 3 := by
  simp only [MarkFields.ok, Bool.and_eq_true, decide_eq_true_eq] at h
  obtain ⟨⟨⟨⟨⟨⟨⟨⟨⟨-, hn⟩, -⟩, hp⟩, -⟩, hcd⟩, hcab⟩, -⟩, hi⟩, -⟩ := h
  exact ⟨hn, hp, hcd, hcab, hi⟩

theorem natOctets_two (v : Nat) : ∃ a b, natOctets 2 v = [a, b] := ⟨_, _, rfl⟩
theorem natOctets_four (v : Nat) : ∃ a b c d, natOctets 4 v = [a, b, c, d] := ⟨_, _, _, _, rfl⟩
theorem natOctets_six (v : Nat) : ∃ a b c d e f, natOctets 6 v = [a, b, c, d, e, f] := ⟨_, _, _, _, _, _, rfl⟩

/-- A mark's octets, its check left open. -/
def markOctets (m : MarkFields) (h : Octet) (check : List Octet) : List Octet :=
  kindMark :: 40 :: h :: (natOctets 6 m.leader.toNat ++ m.epoch :: BitVec.ofNat 8 m.n :: BitVec.ofNat 8 m.index
    :: (natOctets 2 m.round.toNat ++ (natOctets 2 m.period ++ BitVec.ofNat 8 m.procedure.code :: BitVec.ofNat 8 m.countdown
      :: BitVec.ofNat 8 m.cab :: BitVec.ofNat 8 m.heading.code :: flagOctet m.other.isSome
      :: (natOctets 6 (m.other.getD 0).toNat ++ (List.replicate 9 0 ++ check)))))

theorem markRecord_octets (m : MarkFields) (side : Side) :
    ∃ h check, markRecord m side = markOctets m h check := by
  refine ⟨BitVec.ofNat 8 (128 * side.code),
    natOctets 4 (crc32 (recordHeader kindMark (3 + (markMiddle m).length + 4) side ++ markMiddle m)).toNat, ?_⟩
  have hlen := markMiddle_length m
  have hm : markRecord m side = recordHeader kindMark (3 + (markMiddle m).length + 4) side ++ markMiddle m
      ++ natOctets 4 (crc32 (recordHeader kindMark (3 + (markMiddle m).length + 4) side ++ markMiddle m)).toNat := rfl
  rw [hm]
  generalize natOctets 4 _ = check
  rw [hlen]
  simp only [markMiddle, recordHeader, markOctets, List.append_assoc, List.cons_append, List.nil_append]
  rfl

/-- Where each field of a mark stands. -/
theorem markOctets_fields (m : MarkFields) (h : Octet) (check : List Octet) :
    fieldAt (markOctets m h check) 3 6 = octetsNat (natOctets 6 m.leader.toNat)
      ∧ fieldAt (markOctets m h check) 12 2 = octetsNat (natOctets 2 m.round.toNat)
      ∧ fieldAt (markOctets m h check) 14 2 = octetsNat (natOctets 2 m.period)
      ∧ fieldAt (markOctets m h check) 21 6 = octetsNat (natOctets 6 (m.other.getD 0).toNat) := by
  unfold markOctets
  obtain ⟨_, _, _, _, _, _, h1⟩ := natOctets_six m.leader.toNat
  obtain ⟨_, _, h2⟩ := natOctets_two m.round.toNat
  obtain ⟨_, _, h3⟩ := natOctets_two m.period
  obtain ⟨_, _, _, _, _, _, h4⟩ := natOctets_six (m.other.getD 0).toNat
  rw [h1, h2, h3, h4]
  exact ⟨rfl, rfl, rfl, rfl⟩

theorem markOctets_octets (m : MarkFields) (h : Octet) (check : List Octet) :
    octetAt (markOctets m h check) 9 = m.epoch ∧ octetAt (markOctets m h check) 10 = BitVec.ofNat 8 m.n
      ∧ octetAt (markOctets m h check) 11 = BitVec.ofNat 8 m.index
      ∧ octetAt (markOctets m h check) 16 = BitVec.ofNat 8 m.procedure.code
      ∧ octetAt (markOctets m h check) 17 = BitVec.ofNat 8 m.countdown
      ∧ octetAt (markOctets m h check) 18 = BitVec.ofNat 8 m.cab
      ∧ octetAt (markOctets m h check) 19 = BitVec.ofNat 8 m.heading.code
      ∧ octetAt (markOctets m h check) 20 = flagOctet m.other.isSome := by
  unfold markOctets
  obtain ⟨_, _, _, _, _, _, h1⟩ := natOctets_six m.leader.toNat
  obtain ⟨_, _, h2⟩ := natOctets_two m.round.toNat
  obtain ⟨_, _, h3⟩ := natOctets_two m.period
  rw [h1, h2, h3]
  exact ⟨rfl, rfl, rfl, rfl, rfl, rfl, rfl, rfl⟩

theorem decodeMark_markOctets {m : MarkFields} (x : Octet) (check : List Octet) (h : m.ok = true) :
    decodeMark (markOctets m x check) = some m := by
  obtain ⟨hn, hp, hcd, hcab, hi⟩ := MarkFields.ok_bounds h
  obtain ⟨f3, f12, f14, f21⟩ := markOctets_fields m x check
  obtain ⟨o9, o10, o11, o16, o17, o18, o19, o20⟩ := markOctets_octets m x check
  have hone : (flagOctet m.other.isSome).toNat ≤ 1 := by cases m.other.isSome <;> decide
  have hother : (if flagOctet m.other.isSome = 1 then some (m.other.getD 0) else none) = m.other := by
    cases m.other <;> rfl
  unfold decodeMark
  rw [o16, o19, toNat_octet m.procedure.code_lt, toNat_octet m.heading.code_lt, m.procedure.ofCode_code,
    m.heading.ofCode_code]
  dsimp only
  rw [o20, if_pos hone, f3, f12, f14, f21, o9, o10, o11, o17, o18, ofNat_octetsNat 6 m.leader (by decide),
    ofNat_octetsNat 2 m.round (by decide), ofNat_octetsNat 6 (m.other.getD 0) (by decide), hother,
    octetsNat_of_lt (k := 2) (v := m.period) (by norm_num; omega), toNat_octet (n := m.n) (by omega),
    toNat_octet (n := m.index) (by omega), toNat_octet (n := m.countdown) (by omega), toNat_octet (n := m.cab) (by omega)]
  exact if_pos h

theorem decodeMark_markRecord {m : MarkFields} (side : Side) (h : m.ok = true) :
    decodeMark (markRecord m side) = some m := by
  obtain ⟨x, check, hm⟩ := markRecord_octets m side
  rw [hm, decodeMark_markOctets x check h]

/-- Settles O12. -/
theorem markReadsBack : Obligations.MarkReadsBack := fun m side h =>
  ⟨goodRecordOf_markRecord m side, decodeMark_markRecord side h, recordHop_markRecord m side, recordSide_markRecord m side⟩

/-! ## Formation entries -/

/-- A channel description whose granted rate does not matter and whose requested one is a rate is read back (R49). -/
theorem decodeChannel_channelOctet {c : ChannelDesc} (h : c.requested ≠ .suspended) :
    decodeChannel (channelOctet c) = some c := by
  obtain ⟨cls, req, gr, sided⟩ := c
  cases req with
  | suspended => exact absurd rfl h
  | every => cases cls <;> cases gr <;> cases sided <;> rfl
  | alternate => cases cls <;> cases gr <;> cases sided <;> rfl
  | quarter => cases cls <;> cases gr <;> cases sided <;> rfl

theorem readAll_map {α β : Type} {f : α → Option β} {g : β → α} {bs : List β} (h : ∀ b ∈ bs, f (g b) = some b) :
    readAll f (bs.map g) = some bs := by
  induction bs with
  | nil => rfl
  | cons b bs ih =>
    rw [List.map_cons, readAll, h b List.mem_cons_self, ih fun x hx => h x (List.mem_cons_of_mem _ hx)]

/-- The octets of an entry, its fields one after the other (11, The formation entry). -/
theorem entryOctets_eq (en : Entry) : entryOctets en = BitVec.ofNat 8 en.position :: (natOctets 6 en.tag.toNat
    ++ (natOctets 4 en.unit.toNat ++ BitVec.ofNat 8 ((if en.orientation = .reversed then 1 else 0) + (if en.cab then 2 else 0))
      :: BitVec.ofNat 8 (en.refKind.code + 4 * en.farKind.code) :: BitVec.ofNat 8 en.channels.length
      :: (en.channels.map channelOctet ++ (List.replicate (8 - en.channels.length) 0 ++ [0, 0])))) := by
  simp [entryOctets]

theorem entryOctets_length {en : Entry} (h : en.channels.length ≤ 8) : (entryOctets en).length = 24 := by
  simp only [entryOctets_eq, List.length_cons, List.length_append, natOctets_length, List.length_map,
    List.length_replicate, List.length_nil]
  omega

theorem decodeEntry_entryOctets {en : Entry} (hp : en.position ≤ 16) (ht : validTag en.tag = true)
    (hc : en.channels.length ≤ 8) (hch : ∀ c ∈ en.channels, c.ratesOk = true ∧ c.requested ≠ .suspended) :
    decodeEntry (entryOctets en) = some en := by
  have hpos : (octetAt (entryOctets en) 0).toNat = en.position := toNat_octet (by omega)
  have htag : BitVec.ofNat 48 (fieldAt (entryOctets en) 1 6) = en.tag := ofNat_octetsNat 6 en.tag rfl
  have hunit : BitVec.ofNat 32 (fieldAt (entryOctets en) 7 4) = en.unit := ofNat_octetsNat 4 en.unit rfl
  have hflags : octetAt (entryOctets en) 11 =
      BitVec.ofNat 8 ((if en.orientation = .reversed then 1 else 0) + (if en.cab then 2 else 0)) := rfl
  have hkinds : octetAt (entryOctets en) 12 = BitVec.ofNat 8 (en.refKind.code + 4 * en.farKind.code) := rfl
  have hcount : (octetAt (entryOctets en) 13).toNat = en.channels.length := toNat_octet (by omega)
  have hlist : ((entryOctets en).drop 14).take en.channels.length = en.channels.map channelOctet := by
    have hd : (entryOctets en).drop 14 =
        en.channels.map channelOctet ++ (List.replicate (8 - en.channels.length) 0 ++ [0, 0]) := by
      obtain ⟨_, _, _, _, _, _, h1⟩ := natOctets_six en.tag.toNat
      obtain ⟨_, _, _, _, h2⟩ := natOctets_four en.unit.toNat
      rw [entryOctets_eq, h1, h2]
      rfl
    rw [hd]
    exact List.take_left' (List.length_map _)
  have hchs : readAll decodeChannel (en.channels.map channelOctet) = some en.channels :=
    readAll_map fun c hm => decodeChannel_channelOctet (hch c hm).2
  have hrates : en.channels.all ChannelDesc.ratesOk = true := List.all_eq_true.mpr fun c hm => (hch c hm).1
  have hor : (if (octetAt (entryOctets en) 11).getLsbD 0 then Orientation.reversed else .facing) = en.orientation := by
    rw [hflags]
    cases en.orientation <;> cases en.cab <;> rfl
  have hcab : (octetAt (entryOctets en) 11).getLsbD 1 = en.cab := by
    rw [hflags]
    cases en.orientation <;> cases en.cab <;> rfl
  have href : CouplingKind.ofCode ((octetAt (entryOctets en) 12).toNat % 4) = some en.refKind := by
    rw [hkinds]
    cases en.refKind <;> cases en.farKind <;> rfl
  have hfar : CouplingKind.ofCode ((octetAt (entryOctets en) 12).toNat / 4 % 4) = some en.farKind := by
    rw [hkinds]
    cases en.refKind <;> cases en.farKind <;> rfl
  have hle : decide (en.channels.length ≤ 8) = true := decide_eq_true hc
  rw [decodeEntry]
  simp only [hcount, htag, hle, ht, Bool.and_self, if_true, href, hfar, hlist, hchs, hrates, hpos, hunit, hor, hcab]

/-- Settles O13. -/
theorem entryReadsBack : Obligations.EntryReadsBack := fun _ hp ht hc hch =>
  ⟨entryOctets_length hc, decodeEntry_entryOctets hp ht hc hch⟩

end Sys2Proof.Machine
end

section
/-! PROOFS. The car link: frames received and dropped, frames sent, the notice queue (R174 to R176, R184, R188). -/

namespace Sys2Proof.Machine

open Sys2Proof

/-! ## The receive path over octets -/

theorem scan_nil (silent : Bool) (fuel : Nat) : scan silent fuel [] = Scan.nothing := by cases fuel <;> rfl

/-- Hunting passes over octets without a start octet. -/
theorem scan_no_start (silent : Bool) (fuel : Nat) {os : List Octet} (h : startOctet ∉ os) :
    scan silent fuel os = Scan.nothing := by
  induction fuel generalizing os with
  | zero => rfl
  | succ fuel ih =>
    cases os with
    | nil => rfl
    | cons o os =>
      rw [List.mem_cons, not_or] at h
      rw [scan, if_neg fun he => h.1 he.symm, ih h.2]

/-- The octets behind the start octet of a frame, with any check. -/
def frameWith (f : Frame) (c : BitVec 16) : List Octet :=
  [BitVec.ofNat 8 f.body.length, f.kind] ++ natOctets 2 f.tag.toNat ++ f.body ++ natOctets 2 c.toNat

/-- The octets that the check of a frame is taken over (R188). -/
def frameMiddle (f : Frame) : List Octet := [BitVec.ofNat 8 f.body.length, f.kind] ++ natOctets 2 f.tag.toNat ++ f.body

theorem frameMiddle_length (f : Frame) : (frameMiddle f).length = f.body.length + 4 := by
  simp only [frameMiddle, List.length_append, natOctets_length, List.length_cons, List.length_nil]
  omega

theorem frameOctets_eq (f : Frame) : frameOctets f = startOctet :: frameWith f (crc16 (frameMiddle f)) := rfl

/-- Reading a frame, whole and of a length that is allowed: it is good exactly if its check agrees (R174, R188). -/
theorem readFrame_frameWith {f : Frame} (h : f.body.length ≤ 200) (c : BitVec 16) :
    readFrame (frameWith f c) = if c = crc16 (frameMiddle f) then .good f [] else .dropped := by
  have hsplit : frameWith f c = frameMiddle f ++ natOctets 2 c.toNat := rfl
  have hlen : (frameWith f c).length = f.body.length + 6 := by
    rw [hsplit, List.length_append, frameMiddle_length, natOctets_length]
  have hk : (BitVec.ofNat 8 f.body.length).toNat = f.body.length := toNat_octet (by omega)
  have htake : (frameWith f c).take (f.body.length + 4) = frameMiddle f := by
    rw [hsplit]
    exact List.take_left' (frameMiddle_length f)
  have hcheck : fieldAt (frameWith f c) (f.body.length + 4) 2 = c.toNat := by
    rw [fieldAt, hsplit, List.drop_left' (frameMiddle_length f)]
    exact (congrArg octetsNat (List.take_of_length_le (natOctets_length 2 c.toNat).le)).trans (octetsNat_of_lt c.isLt)
  have htag : BitVec.ofNat 16 (fieldAt (frameWith f c) 2 2) = f.tag := ofNat_octetsNat 2 f.tag rfl
  have hbody : ((frameWith f c).drop 4).take f.body.length = f.body := List.take_left
  have hrest : (frameWith f c).drop (f.body.length + 6) = [] := List.drop_of_length_le hlen.le
  have hread : readFrame (frameWith f c) = if 200 < (BitVec.ofNat 8 f.body.length).toNat then .dropped
      else if (frameWith f c).length < (BitVec.ofNat 8 f.body.length).toNat + 6 then .unfinished
      else if fieldAt (frameWith f c) ((BitVec.ofNat 8 f.body.length).toNat + 4) 2 =
          (crc16 ((frameWith f c).take ((BitVec.ofNat 8 f.body.length).toNat + 4))).toNat then
        .good { kind := octetAt (frameWith f c) 1, tag := BitVec.ofNat 16 (fieldAt (frameWith f c) 2 2),
                body := ((frameWith f c).drop 4).take (BitVec.ofNat 8 f.body.length).toNat }
          ((frameWith f c).drop ((BitVec.ofNat 8 f.body.length).toNat + 6))
      else .dropped := rfl
  rw [hread, hk, if_neg (Nat.not_lt.mpr h), if_neg (by omega), hcheck, htake, htag, hbody, hrest]
  by_cases hc : c = crc16 (frameMiddle f)
  · rw [if_pos hc, if_pos (congrArg BitVec.toNat hc)]
    rfl
  · rw [if_neg hc, if_neg fun he => hc (BitVec.eq_of_toNat_eq he)]

theorem scanAll_frameOctets {f : Frame} (h : f.body.length ≤ 200) :
    scanAll false (frameOctets f) = { good := [f], drops := 0, rest := [] } := by
  rw [frameOctets_eq, scanAll, List.length_cons, scan, if_pos rfl, readFrame_frameWith h, if_pos rfl]
  dsimp only
  rw [scan_nil]
  rfl

theorem scanAll_bad_check {f : Frame} (h : f.body.length ≤ 200) {c : BitVec 16} (hc : c ≠ crc16 (frameMiddle f))
    (hs : startOctet ∉ frameWith f c) :
    scanAll false (startOctet :: frameWith f c) = { good := [], drops := 1, rest := [] } := by
  rw [scanAll, List.length_cons, scan, if_pos rfl, readFrame_frameWith h, if_neg hc]
  dsimp only
  rw [scan_no_start _ _ hs]
  rfl

/-- A length octet above 200 drops its frame (R174). -/
theorem scanAll_too_long {len : Octet} (h : 200 < len.toNat) :
    scanAll false [startOctet, len] = { good := [], drops := 1, rest := [] } := by
  have hr : readFrame [len] = .dropped := if_pos h
  have hne : startOctet ∉ [len] := by
    rw [List.mem_singleton]
    rintro rfl
    exact absurd h (by decide)
  show scan false 2 [startOctet, len] = _
  rw [scan, if_pos rfl, hr]
  dsimp only
  rw [scan_no_start _ _ hne]
  rfl

theorem readFrame_begun {len : Octet} (h : len.toNat ≤ 200) : readFrame [len] = .unfinished := by
  have hu : readFrame [len] = if 200 < len.toNat then .dropped
      else if [len].length < len.toNat + 6 then .unfinished
      else if fieldAt [len] (len.toNat + 4) 2 = (crc16 ([len].take (len.toNat + 4))).toNat then
        .good { kind := octetAt [len] 1, tag := BitVec.ofNat 16 (fieldAt [len] 2 2), body := ([len].drop 4).take len.toNat }
          ([len].drop (len.toNat + 6))
      else .dropped := rfl
  rw [hu, if_neg (Nat.not_lt.mpr h), if_pos (by rw [List.length_singleton]; omega)]

theorem scanAll_begun {len : Octet} (h : len.toNat ≤ 200) :
    scanAll false [startOctet, len] = { good := [], drops := 0, rest := [startOctet, len] } := by
  show scan false 2 [startOctet, len] = _
  rw [scan, if_pos rfl, readFrame_begun h]
  rfl

/-- Silence drops the frame begun, whatever its length octet (R174). -/
theorem scanAll_silent {len : Octet} (h : len.toNat ≤ 200) :
    (scanAll true [startOctet, len]).good = [] ∧ (scanAll true [startOctet, len]).rest = [] := by
  have hs : scanAll true [startOctet, len] = (scan true 1 [len]).addDrop := by
    show scan true 2 [startOctet, len] = _
    rw [scan, if_pos rfl, readFrame_begun h]
    rfl
  have h1 : scan true 1 [len] = Scan.nothing ∨ scan true 1 [len] = Scan.nothing.addDrop := by
    rw [scan]
    split
    · exact .inr rfl
    · exact .inl rfl
  rw [hs]
  rcases h1 with h1 | h1 <;> rw [h1] <;> exact ⟨rfl, rfl⟩

/-- A path that hunts has nothing that silence could drop. -/
theorem State.scanLink_hunting {s : State} (h : s.link.rx = []) (at_ : Nat) (silent : Bool) (os : List Octet) :
    s.scanLink at_ silent os = scanAll silent os := by
  unfold State.scanLink
  rw [h]
  split
  · show ({ good := [] ++ (scanAll silent os).good, drops := 0 + (scanAll silent os).drops,
            rest := (scanAll silent os).rest } : Scan) = _
    rw [Nat.zero_add]
    rfl
  · rfl

/-! ## Octets that come -/

/-- Link work that leaves the transmit side at rest ends its step as it stands. -/
theorem finish_received {s : State} (hs : AtRest s) (k : Nat) {l : CarLink} (ht : l.tx = s.link.tx)
    (hr : l.reply = s.link.reply) (hn : l.notices = s.link.notices) (hq : l.restarting = s.link.restarting) :
    finish (s.advance k) { s.advance k with link := l } = .next { s.advance k with link := l } := by
  have ho : ({ s.advance k with link := l } : State).outbox = [] := (s.advance_outbox k).trans hs.1
  have hx : AtRest { s.advance k with link := l } := ⟨ho, by
    show l.tx = .idle → l.reply = none ∧ (l.notices = [] ∨ l.restarting = true)
    rw [ht, hr, hn, hq]
    exact hs.2⟩
  have h := settle_link_only (s.advance k) { s.advance k with link := l } rfl rfl rfl rfl ho
  exact congrArg Host.Outcome.next (h.trans (State.beginFrame_atRest _ hx))

theorem State.lastOctetAt_of_ne {s : State} {os : List Octet} (h : os ≠ []) (n : Nat) : s.lastOctetAt n os = n := if_neg h

/-- What a scan of the octets of some time leaves: the time passed, the receive path, and the holding. -/
theorem State.afterScan_advance (s : State) (k n : Nat) (r : Scan) : (s.advance k).afterScan n r =
    r.good.foldl State.holdFrame { s.advance k with link := { s.link with rx := r.rest, lastOctet := n } } := by
  have h := congrArg (fun l : CarLink => r.good.foldl State.holdFrame
    { s.advance k with link := { l with rx := r.rest, lastOctet := n } }) (s.advance_link k)
  exact h

theorem State.holdFrame_of_room {s : State} (f : Frame) (h : s.link.holding.length < 4) :
    s.holdFrame f = { s with link := { s.link with holding := s.link.holding ++ [f] } } := if_pos h

theorem State.holdFrame_of_full {s : State} (f : Frame) (h : 4 ≤ s.link.holding.length) :
    s.holdFrame f = s.setFlags fun fl => { fl with inputOverrun := true } := if_neg (Nat.not_lt.mpr h)

/-- A good frame alone on a hunting path is offered to the holding (R175). -/
theorem frameReceived_scanned {s : State} {f : Frame} {k : Nat} {os : List Octet} (hp : s.powered = true) (hos : os ≠ [])
    (hg : (s.scanLink (s.now + k) false os).good = [f]) (hr : (s.scanLink (s.now + k) false os).rest = []) :
    exec (.frameReceived k os) s = finish (s.advance k) ((s.octetsCame k 0).holdFrame f) := by
  rw [exec_frameReceived, execFrameReceived, whenPowered_of_powered hp]
  dsimp only
  rw [if_neg (by rw [hg]; exact List.cons_ne_nil _ _), State.lastOctetAt_of_ne hos, s.advance_now k,
    State.afterScan_advance, hg, hr]
  rfl

theorem goodFrame_held {s : State} {f : Frame} {k : Nat} {os : List Octet} (hp : s.powered = true) (hs : AtRest s)
    (hos : os ≠ []) (hg : (s.scanLink (s.now + k) false os).good = [f])
    (hr : (s.scanLink (s.now + k) false os).rest = []) :
    (s.link.holding.length < 4 → exec (.frameReceived k os) s =
        .next { s.octetsCame k 0 with link := { (s.octetsCame k 0).link with holding := s.link.holding ++ [f] } })
      ∧ (4 ≤ s.link.holding.length → exec (.frameReceived k os) s =
        .next { s.octetsCame k 0 with
          link := { (s.octetsCame k 0).link with flags := { s.link.flags with inputOverrun := true } } }) := by
  have hx := frameReceived_scanned hp hos hg hr
  refine ⟨fun hl => ?_, fun hl => ?_⟩
  · rw [hx, State.holdFrame_of_room (s := s.octetsCame k 0) f hl]
    exact finish_received hs k rfl rfl rfl rfl
  · rw [hx, State.holdFrame_of_full (s := s.octetsCame k 0) f hl]
    exact finish_received hs k rfl rfl rfl rfl

theorem frameDropped_scanned {s : State} {k : Nat} {os : List Octet} (hp : s.powered = true) (hs : AtRest s) (hos : os ≠ [])
    (hr : s.scanLink (s.now + k) false os = { good := [], drops := 1, rest := [] }) :
    exec (.frameDropped k os) s = .next (s.octetsCame k 0) := by
  rw [exec_frameDropped, execFrameDropped, whenPowered_of_powered hp]
  dsimp only
  rw [hr, if_neg (by decide), State.lastOctetAt_of_ne hos, s.advance_now k, State.afterScan_advance]
  exact finish_received hs k (l := { s.link with rx := [], lastOctet := s.now + k }) rfl rfl rfl rfl

/-- An unfinished frame that stays so is dropped 2,001 ticks after the last octet (R174). -/
theorem frameTimeout_scanned {s : State} {k last : Nat} {os : List Octet} (hp : s.powered = true) (hs : AtRest s)
    (hl : s.lastOctetAt (s.now + k) os = last) (hr : (s.scanLink last false os).rest ≠ [])
    (hg : (s.scanLink last true os).good = []) (hn : (s.scanLink last true os).rest = []) :
    exec (.frameTimeout k os) s = .next { s.advance (last + 2001 - s.now) with
      link := { s.link with rx := [], lastOctet := last } } := by
  rw [exec_frameTimeout, execFrameTimeout, whenPowered_of_powered hp]
  dsimp only
  rw [hl, if_neg hr, State.advanceTo, State.afterScan_advance, hg, hn]
  exact finish_received hs _ (l := { s.link with rx := [], lastOctet := last }) rfl rfl rfl rfl

/-- Settles O14: a frame's octets are one good frame, or, with a length or a check that fails, one drop behind which hunting
finds no start octet. -/
theorem framesHeldOrDropped : Obligations.FramesHeldOrDropped := by
  refine ⟨fun s f k hp hs hb hrx => ?_, fun s len k hp hs hrx => ⟨fun hlen => ?_, fun hlen => ?_⟩,
    fun s len k hp hs hrx hlen => ?_, fun s f c k hp hs hrx hb => ?_⟩
  · have hscan : (s.scanLink (s.now + k) false (frameOctets f)).good = [f]
        ∧ (s.scanLink (s.now + k) false (frameOctets f)).rest = [] := by
      rcases hrx with hrx | ⟨len, hrx, hlen, hlate⟩
      · rw [State.scanLink_hunting hrx, scanAll_frameOctets hb]
        exact ⟨rfl, rfl⟩
      · rw [State.scanLink, Config.frameSilenceTicks, if_pos hlate, hrx, scanAll_frameOctets hb]
        exact ⟨congrArg (· ++ [f]) (scanAll_silent hlen).1, rfl⟩
    exact goodFrame_held hp hs (List.cons_ne_nil _ _) hscan.1 hscan.2
  · exact frameDropped_scanned hp hs (List.cons_ne_nil _ _) (by rw [State.scanLink_hunting hrx]; exact scanAll_too_long hlen)
  · have hx := frameTimeout_scanned (k := k) (os := [startOctet, len]) hp hs rfl
      (by rw [State.scanLink_hunting hrx, scanAll_begun hlen]; exact List.cons_ne_nil _ _)
      (by rw [State.scanLink_hunting hrx]; exact (scanAll_silent hlen).1)
      (by rw [State.scanLink_hunting hrx]; exact (scanAll_silent hlen).2)
    refine hx.trans ?_
    have hk : s.now + k + 2001 - s.now = k + 2001 := by omega
    show Host.Outcome.next ({ s.advance (s.now + k + 2001 - s.now) with
      link := { s.link with rx := [], lastOctet := s.now + k } } : State) = _
    rw [hk]
    rfl
  · have hlate : ¬ s.link.lastOctet + Config.frameSilenceTicks < s.link.lastOctet := by
      unfold Config.frameSilenceTicks; omega
    have hscan : ∀ silent, s.scanLink s.link.lastOctet silent [] = scanAll silent [startOctet, len] := by
      intro silent
      rw [State.scanLink, if_neg hlate, hrx]
      rfl
    exact frameTimeout_scanned (k := k) (os := []) hp hs rfl
      (by rw [hscan, scanAll_begun hlen]; exact List.cons_ne_nil _ _)
      (by rw [hscan]; exact (scanAll_silent hlen).1) (by rw [hscan]; exact (scanAll_silent hlen).2)
  · intro mid os hc hs'
    exact frameDropped_scanned hp hs (List.cons_ne_nil _ _) (by
      rw [State.scanLink_hunting hrx]
      exact scanAll_bad_check (f := f) hb hc hs')

/-! ## Frames sent -/

/-- Settles O15. -/
theorem frameEndBeginsNext : Obligations.FrameEndBeginsNext := by
  intro s k hp ho htx
  let u := s.advance k
  let x : State := { u with link := { u.link with tx := .idle, line := [] } }
  have hx : exec (.transmitFrameEnd k) s = .next x.beginFrame := by
    rw [exec_transmitFrameEnd, execTransmitFrameEnd, whenPowered_of_powered hp, if_neg htx]
    exact congrArg Host.Outcome.next (settle_link_only u x rfl rfl rfl rfl ((s.advance_outbox k).trans ho))
  have hl : u.link = s.link := s.advance_link k
  have hb : x.beginFrame = (match s.link.reply with
      | some r => { x with link := { x.link with tx := .reply r, line := r.octets, reply := none,
                                                 holding := s.link.holding.tail } }
      | none => if s.link.restarting then x
        else match s.link.notices with
          | [] => x
          | n :: rest => { x with link := { x.link with tx := .notice n, line := n.octets, notices := rest } }) := by
    rw [← hl]
    rfl
  refine ⟨fun r hr => ?_, fun hr hq => ?_, fun hr hq hn => ?_, fun n rest hr hq hn => ?_⟩
  · rw [hx, hb, hr]
  · rw [hx, hb, hr]
    dsimp only
    rw [if_pos hq]
  · rw [hx, hb, hr]
    dsimp only
    rw [if_neg (by rw [hq]; exact Bool.false_ne_true), hn]
  · rw [hx, hb, hr]
    dsimp only
    rw [if_neg (by rw [hq]; exact Bool.false_ne_true), hn]

/-! ## The notice queue -/

theorem dropOldestOther_length {ns : List Notice} (h : ∃ n ∈ ns, n.body.isChange = false) :
    (dropOldestOther ns).length + 1 = ns.length := by
  induction ns with
  | nil => obtain ⟨n, hn, -⟩ := h; cases hn
  | cons x xs ih =>
    obtain ⟨n, hn, hc⟩ := h
    cases hx : x.body.isChange with
    | false => simp [dropOldestOther, hx]
    | true =>
      have hn : n ∈ xs := (List.mem_cons.mp hn).resolve_left fun he => by rw [he, hx] at hc; cases hc
      simp [dropOldestOther, hx, ih ⟨n, hn, hc⟩]

theorem dropOldestOther_changes (ns : List Notice) :
    (dropOldestOther ns).filter (fun n => n.body.isChange) = ns.filter fun n => n.body.isChange := by
  induction ns with
  | nil => rfl
  | cons x xs ih => cases hx : x.body.isChange <;> simp [dropOldestOther, hx, ih]

theorem dropOldestOther_others (ns : List Notice) :
    (dropOldestOther ns).filter (fun n => !n.body.isChange) = (ns.filter fun n => !n.body.isChange).tail := by
  induction ns with
  | nil => rfl
  | cons x xs ih => cases hx : x.body.isChange <;> simp [dropOldestOther, hx, ih]

/-- A notice that joins the tail of a full queue (R184). -/
theorem State.joinTail_full {s : State} (b : NoticeBody) (h : 32 ≤ s.link.notices.length) : s.joinTail b =
    { s with link := { s.link with
      notices := dropOldestOther s.link.notices ++ [{ number := s.link.number, time := s.capture, body := b }]
      number := s.link.number + 1
      flags := { s.link.flags with eventsLost := true } } } := by
  have hf : decide (Config.noticeSize ≤ s.link.notices.length) = true := decide_eq_true h
  simp only [State.joinTail, hf, if_true]

theorem State.replaces_iff {s : State} {b : NoticeBody} :
    s.replaces b ↔ b.isChange = true ∧ ∃ n ∈ s.link.notices, n.body.changeOf = b.changeOf := by
  simp [State.replaces]

/-- Settles O16. -/
theorem fullNoticeQueue : Obligations.FullNoticeQueue := by
  intro s b hfull
  refine ⟨fun hother hnew => ?_, fun hb hwaits => ?_⟩
  · have hn : ¬ s.replaces b := by
      rw [State.replaces_iff]
      rintro ⟨hc, n, hm, he⟩
      rcases hnew with h | h
      · rw [h] at hc; cases hc
      · exact h n hm he
    rw [State.joinNotice_of_not_replaces hn, State.joinTail_full b hfull]
    refine ⟨?_, rfl, rfl, ?_, ?_, ?_⟩
    · rw [List.length_append, List.length_singleton]
      exact dropOldestOther_length hother
    · exact List.getLast?_concat
    · simp only [List.filter_append, dropOldestOther_others]
      cases hc : b.isChange <;> simp [hc]
    · simp only [List.filter_append, dropOldestOther_changes]
      cases hc : b.isChange <;> simp [hc]
  · rw [State.joinNotice_of_replaces (State.replaces_iff.mpr ⟨hb, hwaits⟩)]
    refine ⟨rfl, rfl, List.map_congr_left fun n _ => ?_⟩
    simp only [beq_iff_eq]

end Sys2Proof.Machine
end

section
/-! PROOFS. The waiting record of an end, and the attempts of an applicant (R10, R122). -/

namespace Sys2Proof.Machine

open Sys2Proof

/-- A record in progress goes on while it has not ended, whatever becomes ready. -/
theorem EndUnit.sendNext_busy {u : EndUnit} {p : TxProgress} {t : Nat} (h : u.sending = some p) (ht : t < p.ends) :
    (u.sendNext t).sending = some p ∧ (u.coming = none → u.sendNext t = u) := by
  have hends : ¬ p.ends ≤ t := Nat.not_le.mpr ht
  cases hc : u.coming with
  | none => simp [EndUnit.sendNext, h, hc, hends]
  | some c =>
    refine ⟨?_, fun hn => by cases hn⟩
    unfold EndUnit.sendNext
    simp only [h, hc, hends, decide_false]
    split
    · unfold EndUnit.relay EndUnit.transmit
      rw [hc]
      simp only [h]
      cases u.waiting <;> rfl
    · exact h

theorem EndUnit.sendWaiting_both {u : EndUnit} {p : TxProgress} {w : TxRecord} (hs : u.sending = some p)
    (hw : u.waiting = some w) : u.sendWaiting =
      { u with sending := some { record := w, ends := p.ends + w.octets.length }, waiting := none } := by
  rw [EndUnit.sendWaiting, hs, hw]

/-- At the end of the record in progress a copy that was ready before finds no place, or the waiting record goes on. -/
theorem EndUnit.sendNext_ending {u : EndUnit} {p : TxProgress} {w : TxRecord} (hs : u.sending = some p)
    (hw : u.waiting = some w) :
    u.sendNext p.ends = { u with coming := none } ∧ u.coming ≠ none ∨ u.sendNext p.ends = u.sendWaiting := by
  cases hc : u.coming with
  | none => exact .inr (by simp [EndUnit.sendNext, hs, hc])
  | some c =>
    by_cases hready : c.1 < p.ends
    · refine .inl ⟨?_, fun h => by cases h⟩
      simp [EndUnit.sendNext, hs, hc, hready, hready.le, EndUnit.relay, EndUnit.transmit, hw]
    · exact .inr (by simp [EndUnit.sendNext, hs, hc, hready])

/-- At the end of the record in progress the waiting one is sent (R10). -/
theorem EndUnit.sentBy_ending {u : EndUnit} {p : TxProgress} {w : TxRecord} (hs : u.sending = some p)
    (hw : u.waiting = some w) (hl : w.octets ≠ []) :
    (u.sentBy p.ends).sending = some { record := w, ends := p.ends + w.octets.length }
      ∧ (u.coming = none → (u.sentBy p.ends).waiting = none) := by
  have hpos : p.ends < p.ends + w.octets.length := Nat.lt_add_of_pos_right (List.length_pos_of_ne_nil hl)
  have stays : ∀ v : EndUnit, v.sending = some { record := w, ends := p.ends + w.octets.length } →
      (v.sendNext p.ends).sending = some { record := w, ends := p.ends + w.octets.length } :=
    fun v hv => (EndUnit.sendNext_busy hv hpos).1
  unfold EndUnit.sentBy
  rcases EndUnit.sendNext_ending hs hw with ⟨h1, hc⟩ | h1
  · have h2 : (({ u with coming := none } : EndUnit).sendNext p.ends).sending =
        some { record := w, ends := p.ends + w.octets.length } := by
      rcases EndUnit.sendNext_ending (u := { u with coming := none }) hs hw with ⟨-, h⟩ | h
      · exact absurd rfl h
      · rw [h, EndUnit.sendWaiting_both (u := { u with coming := none }) hs hw]
    rw [h1]
    exact ⟨stays _ (stays _ h2), fun h => absurd h hc⟩
  · have h2 : u.sendWaiting.sending = some { record := w, ends := p.ends + w.octets.length } := by
      rw [EndUnit.sendWaiting_both hs hw]
    rw [h1]
    refine ⟨stays _ (stays _ (stays _ h2)), fun hn => ?_⟩
    have hid : u.sendWaiting.sendNext p.ends = u.sendWaiting :=
      (EndUnit.sendNext_busy h2 hpos).2 (by rw [EndUnit.sendWaiting_both hs hw]; exact hn)
    rw [hid, hid, hid, EndUnit.sendWaiting_both hs hw]

/-- The end units after ticks of a powered part. -/
theorem State.advance_endUnit {s : State} (h : s.powered = true) (k : Nat) (e : EndId) :
    (s.advance k).endUnit e = ((s.endUnit e).countTicks k).sentBy (s.now + k) := by
  unfold State.advance
  rw [if_pos h]
  cases e <;> rfl

/-- Counting ticks moves no record. -/
theorem EndUnit.countTicks_records (dt : Nat) (u : EndUnit) : (u.countTicks dt).sending = u.sending
    ∧ (u.countTicks dt).waiting = u.waiting ∧ (u.countTicks dt).coming = u.coming := by
  unfold EndUnit.countTicks
  split
  · exact ⟨rfl, rfl, rfl⟩
  · dsimp only
    split <;> exact ⟨rfl, rfl, rfl⟩

/-- A step in which only time passed leaves the end units as time left them. -/
theorem settle_self_endUnit (t : State) (e : EndId) : (State.settle t t).endUnit e = t.endUnit e := by
  rw [settle_endUnit, State.restDetection_same t t (fun _ h => h) fun _ h => h, State.recondition_same t t fun _ => rfl]

/-- Settles O41. -/
theorem waitingRecordFollows : Obligations.WaitingRecordFollows := by
  intro s e p w hp hs hw hle hl
  let t := s.advanceTo p.ends
  have hx : exec (.waitingRecordSent e) s = finish t t := by
    rw [exec_waitingRecordSent, execWaitingRecordSent, whenPowered_of_powered hp, hs, hw]
  have hnow : s.now + (p.ends - s.now) = p.ends := Nat.add_sub_cancel' hle
  have hu : t.endUnit e = ((s.endUnit e).countTicks (p.ends - s.now)).sentBy p.ends := by
    rw [show t = s.advance (p.ends - s.now) from rfl, State.advance_endUnit hp, hnow]
  obtain ⟨hcs, hcw, hcc⟩ := (s.endUnit e).countTicks_records (p.ends - s.now)
  obtain ⟨h1, h2⟩ := EndUnit.sentBy_ending (hcs.trans hs) (hcw.trans hw) hl
  refine ⟨_, hx, ?_, ?_, fun hc => ?_⟩
  · rw [settle_now]
    exact (s.advance_now _).trans hnow
  · rw [settle_self_endUnit, hu, h1]
  · rw [settle_self_endUnit, hu, h2 (hcc.trans hc)]

/-- Settles O60. -/
theorem attemptNumberAdvances : Obligations.AttemptNumberAdvances := by
  intro s a hp hn ha hst hr
  have hx : exec .enrollAttemptAdvance s =
      finish s (s.mapApplicant fun a => { a with attempt := (a.attempt + 1) % 16, roundStarts := none }) := by
    rw [exec_enrollAttemptAdvance, execEnrollAttemptAdvance, whenPowered_of_powered hp, ha]
    dsimp only
    rw [if_pos (by simp [hn, hst, hr])]
  refine ⟨_, hx, ?_, ?_, ?_⟩
  · rw [settle_form]; exact hn
  · rw [settle_timer]; rfl
  · rw [settle_form]
    exact congrArg (Option.map _) ha

end Sys2Proof.Machine
end

section
/-! PROOFS. What the leader's and a member's desk work leaves of the part: its answers, items, wants and announcements
touch neither the clock, the cycle timer, the channel unit nor the tables in force. -/

namespace Sys2Proof.Machine

open Sys2Proof

/-! ## The station of the part -/

/-- A state without its petition unit and outbox, and without what is announced or armed. -/
def State.desk (s : State) : State :=
  { s with
    outbox := [], pet := .initial
    planner := { s.planner with shadowPending := none, shadowA := none, shadowB := none }
    form := { s.form with pendingT := none, armedA := none, armedB := none, designatedB := none, procedure := none,
                          countdown := 0, countdownFresh := false, otherTag := none } }

/-- The same without the end units. -/
def State.station (s : State) : State := { s.desk with e1 := .initial, e2 := .initial }

theorem station_of_desk {s t : State} (h : t.desk = s.desk) : t.station = s.station :=
  (congrArg (fun x : State => { x with e1 := .initial, e2 := .initial }) h :)

theorem endUnit_of_desk {s t : State} (h : t.desk = s.desk) (e : EndId) : t.endUnit e = s.endUnit e := by
  cases e
  · exact (congrArg State.e1 h :)
  · exact (congrArg State.e2 h :)

theorem State.mapEnd_station (s : State) (e : EndId) (g : EndUnit → EndUnit) : (s.mapEnd e g).station = s.station := by
  cases e <;> rfl

/-! ## Answers -/

/-- Only an answer to a JOIN_SEEN reaches an end unit. -/
theorem State.deliverAs_desk (s : State) (w : Option Want) {k : WantKind} (hk : k ≠ .joinSeen) (e : Option EndId)
    (o : AnswerOutcome) (r : Option Reason) : (s.deliverAs w k e o r).desk = s.desk := by
  unfold State.deliverAs
  repeat' split
  all_goals first
    | rfl
    | exact absurd rfl hk

theorem State.deliver_desk (s : State) {k : WantKind} (hk : k ≠ .joinSeen) (e : Option EndId) (o : AnswerOutcome)
    (r : Option Reason) : (s.deliver k e o r).desk = s.desk := by
  unfold State.deliver
  split
  · rfl
  · exact State.deliverAs_desk _ _ hk _ _ _

theorem State.answer_desk (s : State) {a : Answer} (hk : a.kind ≠ .joinSeen) : (s.answer a).desk = s.desk := by
  unfold State.answer
  split
  · exact State.deliver_desk _ hk _ _ _
  · rfl

theorem answers_desk (as : List Answer) (hk : ∀ a ∈ as, a.kind ≠ .joinSeen) (s : State) :
    (as.foldl State.answer s).desk = s.desk := by
  induction as generalizing s with
  | nil => rfl
  | cons a as ih =>
    rw [List.foldl_cons, ih (fun x hx => hk x (List.mem_cons_of_mem _ hx)), State.answer_desk s (hk a List.mem_cons_self)]

theorem State.answered_desk {s t : State} {as : List Answer} {g : State → State} (h : s.answered as g = some t)
    (hk : ∀ a ∈ as, a.kind ≠ .joinSeen) (hg : (g s).desk = s.desk) : t.desk = s.desk := by
  unfold State.answered at h
  split at h
  · cases h; rw [answers_desk as hk, hg]
  · cases h

/-- The same for one answer to a car. -/
theorem State.answered_one_desk {s t : State} {x : Tag} {k : WantKind} {e : Option EndId} {o : AnswerOutcome}
    {r : Option Reason} {g : State → State} (h : s.answered [answerTo x k e o r] g = some t) (hk : k ≠ .joinSeen)
    (hg : (g s).desk = s.desk) : t.desk = s.desk :=
  State.answered_desk h (fun a ha => by rw [List.mem_singleton.mp ha]; exact hk) hg

/-- The same for two answers to cars. -/
theorem State.answered_two_desk {s t : State} {x x' : Tag} {k k' : WantKind} {e e' : Option EndId} {o o' : AnswerOutcome}
    {r r' : Option Reason} {g : State → State} (h : s.answered [answerTo x k e o r, answerTo x' k' e' o' r'] g = some t)
    (hk : k ≠ .joinSeen ∧ k' ≠ .joinSeen) (hg : (g s).desk = s.desk) : t.desk = s.desk :=
  State.answered_desk h (fun a ha => by
    rcases List.mem_cons.mp ha with rfl | ha
    · exact hk.1
    · rw [List.mem_singleton.mp ha]; exact hk.2) hg

theorem State.deliverAs_station (s : State) (w : Option Want) (k : WantKind) (e : Option EndId) (o : AnswerOutcome)
    (r : Option Reason) : (s.deliverAs w k e o r).station = s.station := by
  unfold State.deliverAs
  repeat' split
  all_goals first
    | rfl
    | exact State.mapEnd_station _ _ _

theorem State.deliver_station (s : State) (k : WantKind) (e : Option EndId) (o : AnswerOutcome) (r : Option Reason) :
    (s.deliver k e o r).station = s.station := by
  unfold State.deliver
  split
  · rfl
  · exact State.deliverAs_station _ _ _ _ _ _

theorem State.answer_station (s : State) (a : Answer) : (s.answer a).station = s.station := by
  unfold State.answer
  split
  · exact State.deliver_station _ _ _ _ _
  · rfl

/-! ## Wants offered -/

theorem State.place_desk {s t : State} {it : WorkItem} (h : s.place it = some t) : t.desk = s.desk := by
  unfold State.place at h
  obtain ⟨w, -, rfl⟩ := Option.map_eq_some_iff.mp h
  rfl

theorem State.decideClaim_desk (s : State) (t : Tag) : (s.decideClaim t).1.desk = s.desk := by
  unfold State.decideClaim
  repeat' split
  all_goals rfl

theorem State.decideRelease_desk (s : State) (t : Tag) : (s.decideRelease t).1.desk = s.desk := by
  unfold State.decideRelease; split <;> rfl

theorem State.decideHeading_desk (s : State) (t : Tag) (d : Direction) : (s.decideHeading t d).1.desk = s.desk := by
  unfold State.decideHeading; split <;> rfl

theorem State.takeSplit_desk {s t : State} {x : Tag} {p : Nat} (h : s.takeSplit x p = some t) : t.desk = s.desk := by
  unfold State.takeSplit at h
  repeat' split at h
  all_goals first
    | exact State.answered_one_desk h (by decide) rfl
    | exact State.place_desk h
    | (cases h; rfl)
    | cases h

theorem State.takeSplitCancel_desk {s t : State} {x : Tag} {p : Nat} (h : s.takeSplitCancel x p = some t) :
    t.desk = s.desk := by
  unfold State.takeSplitCancel at h
  split at h
  · cases h
  · dsimp only at h
    repeat' split at h
    all_goals first
      | exact State.answered_one_desk h (by decide) rfl
      | exact State.answered_two_desk h (by decide) rfl

theorem State.takeBreak_desk {s t : State} {x : Tag} {e : EndId} {c : Cause} {cap : Capture} {fx : Bool}
    (h : s.takeBreak x e c cap fx = some t) : t.desk = s.desk := by
  unfold State.takeBreak at h
  dsimp only at h
  repeat' split at h
  all_goals first
    | exact State.place_desk h
    | (cases h; rfl)

theorem State.takeForeignQuiet_desk {s t : State} {x : Tag} {e : EndId} {cab : Nat} {hd : Heading}
    (h : s.takeForeignQuiet x e cab hd = some t) : t.desk = s.desk := by
  unfold State.takeForeignQuiet at h
  dsimp only at h
  repeat' split at h
  all_goals exact State.answered_one_desk h (by decide) rfl

theorem State.takePrincipalReady_desk {s t : State} {x : Tag} {e : EndId}
    (h : s.takePrincipalReady x e = some t) : t.desk = s.desk := by
  unfold State.takePrincipalReady at h
  dsimp only at h
  repeat' split at h
  all_goals exact State.answered_one_desk h (by decide) rfl

/-- What the leader decides of a want of its own reaches no end unit and no table in force. -/
theorem State.offer_desk (s : State) (w : Want) : (s.offer w).desk = s.desk := by
  have get : ∀ o : Option State, (∀ t, o = some t → t.desk = s.desk) → (o.getD s).desk = s.desk := by
    intro o ho
    cases o with
    | none => rfl
    | some t => exact ho t rfl
  unfold State.offer
  refine get _ fun t h => ?_
  cases w <;> dsimp only at h
  case joinSeen => exact State.place_desk h
  case foreignQuiet => exact State.takeForeignQuiet_desk h
  case principalReady => exact State.takePrincipalReady_desk h
  case brk => exact State.takeBreak_desk h
  case split =>
    split at h
    · exact State.takeSplit_desk h
    · cases h; rfl
  case splitCancel =>
    split at h
    · exact State.takeSplitCancel_desk h
    · cases h; rfl
  case cabClaim => exact State.answered_one_desk h (by decide) (State.decideClaim_desk _ _)
  case cabRelease => exact State.answered_one_desk h (by decide) (State.decideRelease_desk _ _)
  case heading => exact State.answered_one_desk h (by decide) (State.decideHeading_desk _ _ _)

theorem State.offerKey_desk (s : State) (k : WantKind × Option EndId) : (s.offerKey k).desk = s.desk := by
  unfold State.offerKey
  split
  · exact State.offer_desk _ _
  · rfl

theorem State.offerWants_desk (s : State) : s.offerWants.desk = s.desk := by
  have fold : ∀ (ks : List (WantKind × Option EndId)) (x : State), (ks.foldl State.offerKey x).desk = x.desk := by
    intro ks
    induction ks with
    | nil => intro x; rfl
    | cons k ks ih => intro x; rw [List.foldl_cons, ih, State.offerKey_desk]
  exact fold _ _

/-- With no want queued nothing is offered. -/
theorem State.offerWants_of_nil {s : State} (h : s.pet.queue = []) : s.offerWants = s := by
  unfold State.offerWants
  rw [h]
  rfl

theorem State.queueWant_desk (s : State) (w : Want) : (s.queueWant w).desk = s.desk := by
  unfold State.queueWant
  dsimp only
  split
  · exact (State.offer_desk _ _).trans rfl
  · rfl

theorem State.breakWant_desk (s : State) (e : EndId) : (s.breakWant e).desk = s.desk := by
  unfold State.breakWant
  split
  · exact State.queueWant_desk _ _
  · rfl

/-! ## Items carried out -/

theorem State.decideJoin_station (s : State) (t : Tag) (e : EndId) (r : ForeignReport) :
    (s.decideJoin t e r).station = s.station := by
  unfold State.decideJoin
  dsimp only
  repeat' split
  all_goals exact (State.answer_station _ _).trans rfl

theorem State.startEnroll_station (s : State) (it : WorkItem) (t : Tag) (en : Entry) (p : TagPlace) :
    (s.startEnroll it t en p).station = s.station := by
  unfold State.startEnroll
  repeat' split
  all_goals exact (State.answer_station _ _).trans rfl

theorem State.carryOut_station (s : State) (it : WorkItem) : (s.carryOut it).station = s.station := by
  cases it with
  | join t e r => exact State.decideJoin_station s t e r
  | brk t e c cap fx => rfl
  | split r l h p =>
    show (s.startSplit _ _ _ _).station = _
    unfold State.startSplit
    split <;> rfl
  | enroll t en pl => exact State.startEnroll_station s _ t en pl
  | dropout t => rfl

theorem State.beginDeferred_station (s : State) : s.beginDeferred.station = s.station := by
  unfold State.beginDeferred
  split
  · dsimp only
    split
    · exact (State.carryOut_station _ _).trans rfl
    · rfl
  · rfl

theorem State.beginDeferred_of_not {s : State} (h : s.pet.deferred = false) : s.beginDeferred = s := by
  unfold State.beginDeferred
  rw [if_neg (by rw [h]; exact Bool.false_ne_true)]

/-! ## Records sent, changes noticed -/

/-- An own record on one end, if it is ACTIVE. -/
def State.sendOwnAt (s : State) (make : Side → List Octet) (e : EndId) : State :=
  if s.condition e = .active then s.sendOwnOn e (make (s.sideOf e)) else s

theorem State.sendOwn_eq (s : State) (make : Side → List Octet) :
    s.sendOwn make = (s.sendOwnAt make .e1).sendOwnAt make .e2 := rfl

theorem State.sendOwnAt_withEnds (s : State) (make : Side → List Octet) (e : EndId) :
    ∃ u v, s.sendOwnAt make e = s.withEnds u v := by
  unfold State.sendOwnAt
  split
  · exact s.mapEnd_withEnds _ _
  · exact ⟨s.e1, s.e2, rfl⟩

theorem State.sendOwn_withEnds (s : State) (make : Side → List Octet) : ∃ u v, s.sendOwn make = s.withEnds u v := by
  obtain ⟨u, v, h⟩ := s.sendOwnAt_withEnds make .e1
  obtain ⟨u', v', h'⟩ := (s.withEnds u v).sendOwnAt_withEnds make .e2
  exact ⟨u', v', by rw [State.sendOwn_eq, h, h']; rfl⟩

/-- Notices of a step do no more than wait in the outbox. -/
def State.withOutbox (s : State) (o : List (Nat × NoticeBody)) : State := { s with outbox := o }

/-- CHANGE notices only join the outbox. -/
theorem State.noticeChanges_only (s : State) (b : List ImageCell) : ∃ cs : List (Nat × NoticeBody),
    s.noticeChanges b = s.withOutbox (s.outbox ++ cs) ∧ ∀ c ∈ cs, c.1 = rankChange := by
  let one := fun (x : State) (w : Tag × Nat) =>
    match cellOfTag b w.1 w.2, cellOfTag s.cells w.1 w.2 with
    | some y, some a => if cellChanged y a then x.notify rankChange (.change (a.report s.capture)) else x
    | _, _ => x
  have hone : ∀ x w, ∃ cs : List (Nat × NoticeBody), one x w = x.withOutbox (x.outbox ++ cs) ∧
      ∀ c ∈ cs, c.1 = rankChange := by
    intro x w
    have keep : ∃ cs : List (Nat × NoticeBody), x = x.withOutbox (x.outbox ++ cs) ∧ ∀ c ∈ cs, c.1 = rankChange :=
      ⟨[], by rw [List.append_nil]; rfl, fun c hc => by cases hc⟩
    simp only [one]
    split
    · split
      · exact ⟨[_], rfl, fun c hc => by rw [List.mem_singleton.mp hc]⟩
      · exact keep
    · exact keep
  have fold : ∀ (ws : List (Tag × Nat)) (x : State), ∃ cs : List (Nat × NoticeBody),
      ws.foldl one x = x.withOutbox (x.outbox ++ cs) ∧ ∀ c ∈ cs, c.1 = rankChange := by
    intro ws
    induction ws with
    | nil => exact fun x => ⟨[], by rw [List.append_nil]; rfl, fun c hc => by cases hc⟩
    | cons w ws ih =>
      intro x
      obtain ⟨c1, h1, m1⟩ := hone x w
      obtain ⟨c2, h2, m2⟩ := ih (one x w)
      refine ⟨c1 ++ c2, ?_, fun c hc => (List.mem_append.mp hc).elim (m1 c) (m2 c)⟩
      rw [List.foldl_cons, h2, h1]
      simp only [State.withOutbox, List.append_assoc]
  exact fold s.chan.watch s

theorem State.noticeChanges_interior (s : State) (b : List ImageCell) : (s.noticeChanges b).interior = s.interior := by
  obtain ⟨cs, h, -⟩ := s.noticeChanges_only b
  rw [h]
  rfl

/-- With nothing watched no change is noticed. -/
theorem State.noticeChanges_unwatched {s : State} (h : s.chan.watch = []) (b : List ImageCell) : s.noticeChanges b = s := by
  unfold State.noticeChanges
  rw [h]
  rfl

/-- The own-cab mark compared changes the petition unit's own cab and makes at most a CAB notice. -/
theorem State.compareCab_only (s : State) : ∃ b o, s.compareCab =
    ({ s with pet := { s.pet with ownCab := b, releasedSince := false } } : State).withOutbox (s.outbox ++ o)
      ∧ ∀ c ∈ o, c.1 = rankCab := by
  have made : ∀ (lost : Bool) (x : State), ∃ o, (if lost then x.notify rankCab (.cab .lost) else x) =
      x.withOutbox (x.outbox ++ o) ∧ ∀ c ∈ o, c.1 = rankCab := by
    intro lost x
    cases lost
    · exact ⟨[], by rw [List.append_nil]; rfl, fun c hc => by cases hc⟩
    · exact ⟨[(rankCab, .cab .lost)], rfl, fun c hc => by rw [List.mem_singleton.mp hc]⟩
  unfold State.compareCab
  obtain ⟨o, h, ho⟩ := made _ _
  exact ⟨_, o, h, ho⟩

end Sys2Proof.Machine
end

section
/-! PROOFS. Time passing, and the entry into LEAD (R23, R31, R88, R99, R138). -/

namespace Sys2Proof.Machine

open Sys2Proof

/-! ## A state in which no more than time has passed -/

/-- Between the two states only counters, end units, link and outbox have moved. -/
structure Passed (s y : State) : Prop where
  powered : y.powered = s.powered
  form : y.form = { s.form with listenTimer := y.form.listenTimer }
  timer : y.timer = { s.timer with counter := y.timer.counter }
  pet : y.pet = { s.pet with split := y.pet.split }
  store : y.store = s.store
  chan : y.chan = s.chan
  planner : y.planner = s.planner

theorem Passed.refl (s : State) : Passed s s := ⟨rfl, rfl, rfl, rfl, rfl, rfl, rfl⟩

/-- Time changes of the petition unit its split record only. -/
theorem State.advance_pet (s : State) (k : Nat) : (s.advance k).pet = { s.pet with split := (s.advance k).pet.split } := by
  unfold State.advance
  split
  · dsimp only
    split
    · split <;> rfl
    · rfl
  · rfl

theorem Passed.advance (s : State) (k : Nat) : Passed s (s.advance k) :=
  ⟨s.advance_powered k, s.advance_form k, s.advance_timer k, s.advance_pet k, s.advance_store k, s.advance_chan k,
    s.advance_planner k⟩

theorem Passed.of_interior {s y x : State} (h : Passed s y) (hx : x.interior = y.interior) : Passed s x := by
  have hp : x.powered = y.powered := (congrArg State.powered hx :)
  have hf : x.form = y.form := (congrArg State.form hx :)
  have ht : x.timer = y.timer := (congrArg State.timer hx :)
  have he : x.pet = y.pet := (congrArg State.pet hx :)
  have hs : x.store = y.store := (congrArg State.store hx :)
  have hc : x.chan = y.chan := (congrArg State.chan hx :)
  have hl : x.planner = y.planner := (congrArg State.planner hx :)
  exact ⟨hp.trans h.powered, by rw [hf]; exact h.form, by rw [ht]; exact h.timer, by rw [he]; exact h.pet,
    hs.trans h.store, hc.trans h.chan, hl.trans h.planner⟩

theorem Passed.mapEnd {s y : State} (h : Passed s y) (e : EndId) (g : EndUnit → EndUnit) : Passed s (y.mapEnd e g) :=
  h.of_interior (y.mapEnd_interior e g)

section
variable {s y : State} (h : Passed s y)
include h

theorem Passed.node : y.form.node = s.form.node := by rw [h.form]
theorem Passed.current : y.form.current = s.form.current := by rw [h.form]
theorem Passed.steering : y.form.steering = s.form.steering := by rw [h.form]
theorem Passed.followed : y.timer.followed = s.timer.followed := by rw [h.timer]
theorem Passed.queue : y.pet.queue = s.pet.queue := by rw [h.pet]
theorem Passed.settings : y.settings = s.settings := by rw [State.settings, State.settings, h.store]
theorem Passed.ownTag : y.ownTag = s.ownTag := State.ownTag_congr h.store
theorem Passed.fixedEnd (e : EndId) : y.fixedEnd e = s.fixedEnd e := by
  unfold State.fixedEnd
  rw [h.store]
theorem Passed.entries : y.entries = s.entries := by rw [State.entries, State.entries, h.current]
theorem Passed.n : y.n = s.n := by rw [State.n, State.n, h.entries]
theorem Passed.ownPosition : y.ownPosition = s.ownPosition := by
  rw [State.ownPosition, State.ownPosition, h.entries, h.ownTag]
theorem Passed.sideOf (e : EndId) : y.sideOf e = s.sideOf e := by rw [State.sideOf, State.sideOf, h.steering]
theorem Passed.outer (e : EndId) : y.outer e = s.outer e := by rw [State.outer, State.outer, h.steering]
theorem Passed.inner (e : EndId) : y.inner e = s.inner e := by rw [State.inner, State.inner, h.steering]
theorem Passed.upstream : y.upstream = s.upstream := by
  rw [State.upstream, State.upstream, h.steering, h.followed, h.node, h.entries]
theorem Passed.leaderTag : y.leaderTag = s.leaderTag := by
  rw [State.leaderTag, State.leaderTag, h.node, h.ownTag, h.followed]
theorem Passed.workingEpoch : y.workingEpoch = s.workingEpoch := by
  rw [State.workingEpoch, State.workingEpoch, h.node, h.current, h.followed]
theorem Passed.synced : y.synced = s.synced := by
  rw [State.synced, State.synced, h.node, h.current, h.followed]
theorem Passed.period : y.period = s.period := by rw [State.period, State.period, h.timer]
theorem Passed.nextEpoch : y.nextEpoch = s.nextEpoch := by
  have hl : y.form.led = s.form.led := by rw [h.form]
  rw [State.nextEpoch, State.nextEpoch, hl, h.current]
theorem Passed.cells : y.cells = s.cells := by rw [State.cells, State.cells, h.chan]

end

/-! ## The entry into LEAD -/

theorem State.forgetJoins_endUnit (s : State) (e : EndId) : s.forgetJoins.endUnit e = (s.endUnit e).forgetJoin := by
  cases e <;> rfl

/-- The state in which a part enters LEAD, before its wants are offered. -/
def State.leadEntered (s : State) (led : Led) (lastMark : Option MarkFields) : State :=
  { s with
    form := { s.form with
      node := .lead, led := some led, fastPath := none, yieldRecord := none, seek := none,
      procedure := none, countdown := 0, countdownFresh := false, otherTag := none, rollPointer := none }
    pet := (({ s.pet.leaveLead with silence := rekeySilence s.ownTag [] s.entries } : PetitionUnit).setCab
      (lastMark.bind fun m => holderOf m s.entries)) }

theorem State.enterLead_desk (s : State) (led : Led) (m : Option MarkFields) :
    (s.enterLead led m).desk = (s.leadEntered led m).forgetJoins.desk :=
  (State.offerWants_desk _).trans rfl

theorem State.enterLead_station (s : State) (led : Led) (m : Option MarkFields) :
    (s.enterLead led m).station = (s.leadEntered led m).station :=
  (station_of_desk (s.enterLead_desk led m)).trans ((State.mapEnd_station _ _ _).trans (State.mapEnd_station _ _ _))

/-- The part that enters LEAD has its led table and follows no one's records (R138). -/
theorem State.enterLead_form (s : State) (led : Led) (m : Option MarkFields) :
    (s.enterLead led m).form.node = .lead ∧ (s.enterLead led m).form.led = some led
      ∧ (s.enterLead led m).form.fastPath = none ∧ (s.enterLead led m).form.seek = none
      ∧ (s.enterLead led m).form.current = s.form.current := by
  have h := s.enterLead_station led m
  exact ⟨(congrArg (fun x : State => x.form.node) h :), (congrArg (fun x : State => x.form.led) h :),
    (congrArg (fun x : State => x.form.fastPath) h :), (congrArg (fun x : State => x.form.seek) h :),
    (congrArg (fun x : State => x.form.current) h :)⟩

theorem State.enterLead_endUnit (s : State) (led : Led) (m : Option MarkFields) (e : EndId) :
    (s.enterLead led m).endUnit e = (s.endUnit e).forgetJoin := by
  rw [endUnit_of_desk (s.enterLead_desk led m) e, State.forgetJoins_endUnit]
  cases e <;> rfl

/-- With no want waiting the entry into LEAD is noticed by nothing. -/
theorem State.enterLead_of_nil {s : State} (led : Led) (m : Option MarkFields) (h : s.pet.queue = []) :
    s.enterLead led m = (s.leadEntered led m).forgetJoins.rewindWants := by
  refine State.offerWants_of_nil ?_
  show List.map Want.rewind s.pet.queue = []
  rw [h]
  rfl

theorem State.successorEpoch_of_followed {s : State} {ep : Epoch} (h : s.timer.followed.map Prod.snd = some ep) :
    s.successorEpoch = ep + 1 := by
  rw [State.successorEpoch, h]
  rfl

end Sys2Proof.Machine
end

section
/-! PROOFS. End events: what a qualified OPEN, a carrier loss and SET_END_MODE set going (R1 to R3, R6, R13, R139, R144). -/

namespace Sys2Proof.Machine

open Sys2Proof

/-! ## BREAK wants -/

/-- The BREAK that an end event would queue. -/
def State.breakOf (s : State) (e : EndId) : Want := .brk e (s.endUnit e).cause s.capture (s.fixedEnd e)

theorem State.breakWant_member {s : State} {e : EndId} (hn : s.form.node = .member) (hi : s.inner e = true)
    (hu : s.upstream ≠ some e) :
    s.breakWant e = { s with pet := { s.pet with queue := putWant (s.breakOf e) s.pet.queue } } := by
  have hc : ((decide (s.form.node = .lead) || decide (s.form.node = .member)) && s.inner e && s.upstream != some e) = true := by
    simp [hn, hi, hu]
  unfold State.breakWant
  rw [if_pos hc]
  exact State.queueWant_of_not_lead _ (by rw [hn]; decide)

theorem State.breakWant_outer {s : State} {e : EndId} (hi : s.inner e = false) : s.breakWant e = s := by
  unfold State.breakWant
  rw [if_neg (by simp [hi])]

theorem State.breakWant_lead {s : State} {e : EndId} (hn : s.form.node = .lead) (hi : s.inner e = true)
    (hu : s.upstream ≠ some e) : s.breakWant e = s.queueWant (s.breakOf e) := by
  unfold State.breakWant
  exact if_pos (by simp [hn, hi, hu])

theorem WorkItem.sameKey_brk (t : Tag) (e : EndId) (c : Cause) (cap : Capture) (fx : Bool) :
    (WorkItem.brk t e c cap fx).sameKey = WorkItem.breaks t e := by
  funext it
  cases it with
  | brk t' e' _ _ _ =>
    rw [Bool.eq_iff_iff]
    simp only [WorkItem.sameKey, WorkItem.breaks, Bool.and_eq_true, beq_iff_eq]
    exact ⟨fun h => ⟨h.1.symm, h.2.symm⟩, fun h => ⟨h.1.symm, h.2.symm⟩⟩
  | join _ _ _ => rfl
  | split _ _ _ _ => rfl
  | enroll _ _ _ => rfl
  | dropout _ => rfl

/-- A BREAK that no item waits for goes ahead of the items that are not urgent (R94). -/
theorem placeItem_brk {t : Tag} {e : EndId} {c : Cause} {cap : Capture} {fx : Bool} {work : List WorkItem}
    (hw : work.any (WorkItem.breaks t e) = false) (hl : work.length < 8) :
    placeItem (.brk t e c cap fx) work = some (insertUrgent (.brk t e c cap fx) work) := by
  have hf : ¬ Config.workSize ≤ work.length := Nat.not_le.mpr hl
  unfold placeItem
  rw [WorkItem.sameKey_brk, if_neg (by rw [hw]; exact Bool.false_ne_true), if_neg hf]
  rfl

/-- A free leader takes its own BREAK as a work item as it is queued (R91, R142). -/
theorem State.queueWant_brk_lead {s : State} {e : EndId} {c : Cause} {cap : Capture} {fx : Bool}
    (hn : s.form.node = .lead) (hp : s.pet.inProgress = none) (hl : s.pet.work.length < 8)
    (hw : s.pet.work.any (WorkItem.breaks s.ownTag e) = false) :
    s.queueWant (.brk e c cap fx) = { s with pet := { s.pet with
      queue := putWant (.brk e c cap fx) s.pet.queue, work := insertUrgent (.brk s.ownTag e c cap fx) s.pet.work } } := by
  rw [State.queueWant_of_lead _ hn]
  let s1 : State := { s with pet := { s.pet with queue := putWant (.brk e c cap fx) s.pet.queue } }
  show (s1.takeBreak s1.ownTag e c cap fx).getD s1 = _
  have ht : s1.takeBreak s1.ownTag e c cap fx =
      some { s1 with pet := { s1.pet with work := insertUrgent (.brk s.ownTag e c cap fx) s.pet.work } } := by
    unfold State.takeBreak
    have hp1 : s1.pet.inProgress = none := hp
    rw [hp1]
    show Option.map _ (placeItem (.brk s.ownTag e c cap fx) s.pet.work) = _
    rw [placeItem_brk hw hl]
    rfl
  rw [ht]
  rfl

/-- A BREAK or a JOIN_SEEN that is queued makes no notice. -/
theorem State.place_outbox {s t : State} {it : WorkItem} (h : s.place it = some t) : t.outbox = s.outbox := by
  obtain ⟨w, -, rfl⟩ := Option.map_eq_some_iff.mp h
  rfl

theorem State.queueWant_brk_outbox (s : State) (e : EndId) (c : Cause) (cap : Capture) (fx : Bool) :
    (s.queueWant (.brk e c cap fx)).outbox = s.outbox := by
  unfold State.queueWant
  dsimp only
  split
  · unfold State.offer
    dsimp only
    cases h : State.takeBreak _ _ e c cap fx with
    | none => rfl
    | some t =>
      unfold State.takeBreak at h
      dsimp only at h
      repeat' split at h
      all_goals first
        | exact (State.place_outbox h).trans rfl
        | (cases h; rfl)
  · rfl

theorem State.queueWant_joinSeen_outbox (s : State) (e : EndId) (r : ForeignReport) (p : Nat) :
    (s.queueWant (.joinSeen e r p)).outbox = s.outbox := by
  unfold State.queueWant
  dsimp only
  split
  · unfold State.offer
    dsimp only
    cases h : State.place _ _ with
    | none => rfl
    | some t => exact (State.place_outbox h).trans rfl
  · rfl

theorem State.breakWant_outbox (s : State) (e : EndId) : (s.breakWant e).outbox = s.outbox := by
  unfold State.breakWant
  split
  · exact State.queueWant_brk_outbox _ _ _ _ _
  · rfl

/-! ## The designated B leader -/

theorem State.designatedTable_of {s y : State} (h : Passed s y) {e : EndId} {b : Table} {ep : Epoch}
    (hl : LineComesBy s e ep) (hd : DesignatedB s b ep) : y.designatedTable = some b := by
  obtain ⟨hn, -, hf⟩ := hl
  obtain ⟨ho, ⟨a, ha, hae⟩, hb, hbe, hh⟩ := hd
  have hw : y.workingEpoch = some ep := by
    rw [h.workingEpoch, State.workingEpoch, if_neg (by rcases hn with hn | hn <;> rw [hn] <;> decide), hf]
  have ha' : y.form.armedA = some a := by rw [h.form, ← ha]
  have hb' : y.form.armedB = some b := by rw [h.form, ← hb]
  have hc : y.armedComplete = true := (State.armedComplete_iff y).mpr ⟨a, b, ep, ha', hb', hw, hae, hbe⟩
  have hdes : y.form.designatedB = some y.ownTag := by rw [h.form, h.ownTag, ← ho]
  have hnode : y.form.node = .member ∨ y.form.node = .orphan := by rw [h.node]; exact hn
  unfold State.designatedTable
  rw [hc, hdes, ha', hb']
  rcases hnode with hnode | hnode <;> simp [hnode, h.ownTag, hh]

theorem State.designatedTable_eq_none {s : State} (h : s.form.designatedB ≠ some s.ownTag) : s.designatedTable = none := by
  unfold State.designatedTable
  rw [if_neg (by simp [h])]

theorem State.executeB_form {s : State} {b : Table} {ep : Epoch} (hf : s.timer.followed.map Prod.snd = some ep)
    (hb : b.epoch = ep + 1) : (s.executeB b).form.node = .lead
      ∧ (s.executeB b).form.led = some { table := b, by_ := .designatedB } ∧ (s.executeB b).form.fastPath = none := by
  obtain ⟨h1, h2, h3, -⟩ := s.enterLead_form { table := { b with epoch := s.successorEpoch }, by_ := .designatedB }
    s.timer.latched
  have he : ({ b with epoch := s.successorEpoch } : Table) = b := by
    rw [State.successorEpoch_of_followed hf, ← hb]
  exact ⟨h1, h2.trans (by rw [he]), h3⟩

/-! ## What an end event sets going -/

/-- Work at an end event that goes by the upstream end's rules, and else queues a BREAK (R13, R139). -/
structure EventWork (y : State) (e : EndId) (x : State) : Prop where
  elsewhere : ¬ (y.upstream = some e ∧ (y.form.node = .member ∨ y.form.node = .orphan)) → x = y.breakWant e
  designated : ∀ b, y.upstream = some e → y.form.node = .member ∨ y.form.node = .orphan → y.designatedTable = some b →
    x = y.executeB b
  other : y.upstream = some e → y.form.node = .member → y.designatedTable = none → x.pet.queue = y.pet.queue

theorem State.upstream_ne_of_lead {s : State} (h : s.form.node = .lead) (e : EndId) : s.upstream ≠ some e := by
  unfold State.upstream
  split
  · rw [if_pos h]; exact nofun
  · exact nofun

theorem EventWork.told {s y x t : State} {e : EndId} (h : Passed s y) (hx : EventWork y e x) (hp : t.pet = x.pet)
    (hf : t.form = x.form) : EndEventTold s t e (y.endUnit e).cause y.capture := by
  refine ⟨fun hn hi hu => ?_, fun hn hi hip hl hw => ?_, fun hn hc hd => ?_, fun b ep hl hd => ?_⟩
  · have hb := hx.elsewhere (by rw [h.upstream]; exact fun hc => hu hc.1)
    rw [State.breakWant_member (by rw [h.node, hn]) (by rw [h.inner, hi]) (by rw [h.upstream]; exact hu)] at hb
    rw [hp, hf, hb]
    refine ⟨?_, h.node.trans hn, ?_⟩
    · show putWant (y.breakOf e) y.pet.queue = _
      rw [State.breakOf, h.fixedEnd, h.queue]
    · show y.form.fastPath = _
      rw [h.form]
  · have hny : y.form.node = .lead := h.node.trans hn
    have hb := hx.elsewhere (fun hc => State.upstream_ne_of_lead hny e hc.1)
    rw [State.breakWant_lead hny (by rw [h.inner, hi]) (State.upstream_ne_of_lead hny e), State.breakOf,
      State.queueWant_brk_lead hny (by rw [h.pet]; exact hip) (by rw [h.pet]; exact hl)
        (by rw [h.pet, h.ownTag]; exact hw)] at hb
    rw [hp, hf, hb]
    refine ⟨?_, hny, ?_⟩
    · show insertUrgent (.brk y.ownTag e _ _ (y.fixedEnd e)) y.pet.work = _
      rw [h.ownTag, h.fixedEnd, h.pet]
    · show y.pet.answers = _
      rw [h.pet]
  · rw [hp, ← h.queue]
    by_cases hu : s.upstream = some e
    · exact hx.other (h.upstream.trans hu) (h.node.trans hn)
        (State.designatedTable_eq_none (by rw [h.ownTag, h.form]; exact hd))
    · have hi : s.inner e = false := hc.resolve_right hu
      rw [hx.elsewhere (by rw [h.upstream]; exact fun hc => hu hc.1), State.breakWant_outer (by rw [h.inner, hi])]
  · have hd' := State.designatedTable_of h hl hd
    obtain ⟨hn, hu, hfo⟩ := hl
    have hb := hx.designated b (h.upstream.trans hu) (by rw [h.node]; exact hn) hd'
    have hbe : b.epoch = ep + 1 := by obtain ⟨-, -, -, hbe, -⟩ := hd; exact hbe
    rw [hf, hb]
    exact State.executeB_form (by rw [h.followed]; exact hfo) hbe

theorem State.onContactOpen_work (y : State) (e : EndId) : EventWork y e (y.onContactOpen e) where
  elsewhere h := by
    unfold State.onContactOpen
    exact if_neg (by simpa using h)
  designated b hu hn hb := by
    unfold State.onContactOpen
    rw [if_pos (by simp [hu, hn]), hb]
  other hu hn hb := by
    unfold State.onContactOpen
    rw [if_pos (by simp [hu, hn]), hb]

theorem State.onCarrierLoss_work (y : State) (e : EndId) : EventWork y e (y.onCarrierLoss e) where
  elsewhere h := by
    unfold State.onCarrierLoss
    exact if_neg (by simpa using h)
  designated b hu hn hb := by
    unfold State.onCarrierLoss
    rw [if_pos (by simp [hu, hn]), hb]
  other hu hn hb := by
    unfold State.onCarrierLoss
    rw [if_pos (by simp [hu, hn]), hb]
    dsimp only
    rw [if_pos hn]

/-- The fast path of an orphan at the carrier loss of its upstream end (R144). -/
theorem State.fastLead_form {s : State} {e : EndId} {ep : Epoch} (hu : s.upstream = some e)
    (hf : s.timer.followed.map Prod.snd = some ep) (cap : Capture) : (s.fastLead cap).form.node = .lead
      ∧ (s.fastLead cap).form.led = some
        { table := Table.mk (ep + 1) (grantKept s.settings.period s.ownTag
            (if s.sideOf e = .ref then keepRun s.entries s.ownPosition s.n else keepRun s.entries 1 s.ownPosition))
          by_ := .fastPath { cause := (s.endUnit e).cause, capture := cap, fixed := s.fixedEnd e } } := by
  unfold State.fastLead
  dsimp only
  obtain ⟨h1, h2, -⟩ := s.enterLead_form _ s.timer.latched
  refine ⟨h1, h2.trans ?_⟩
  rw [State.successorEpoch_of_followed hf, State.remnantEntries, hu]

theorem State.onCarrierLoss_told {s y t : State} {e : EndId} (h : Passed s y) (hp : t.pet = (y.onCarrierLoss e).pet)
    (hf : t.form = (y.onCarrierLoss e).form) : LossTold s t e (y.endUnit e).cause y.capture := by
  refine ⟨(y.onCarrierLoss_work e).told h hp hf, fun ep hl hd => ?_⟩
  have hnone : y.designatedTable = none := State.designatedTable_eq_none (by rw [h.ownTag, h.form]; exact hd)
  obtain ⟨hn, hu, hfo⟩ := hl
  have huy : y.upstream = some e := h.upstream.trans hu
  have hx : y.onCarrierLoss e = if y.form.node = .member then { y with form := { y.form with fastPath := some y.capture } }
      else y.fastLead y.capture := by
    unfold State.onCarrierLoss
    rw [if_pos (by rw [h.node, huy]; simpa using hn), hnone]
  refine ⟨fun hm => ?_, fun ho => ?_⟩
  · rw [hf, hx, if_pos (h.node.trans hm)]
    refine ⟨h.node.trans hm, rfl, ?_⟩
    show y.form.led = s.form.led
    rw [h.form]
  · rw [hf, hx, if_neg (by rw [h.node, ho]; decide)]
    obtain ⟨h1, h2⟩ := State.fastLead_form huy (by rw [h.followed]; exact hfo) y.capture
    refine ⟨h1, h2.trans ?_⟩
    rw [h.settings, h.ownTag, h.sideOf, h.entries, h.ownPosition, h.n, h.fixedEnd]

/-- An end event forgets the joins at most of the end units. -/
theorem State.onCarrierLoss_endUnit (y : State) (e e' : EndId) : (y.onCarrierLoss e).endUnit e' = y.endUnit e'
    ∨ (y.onCarrierLoss e).endUnit e' = (y.endUnit e').forgetJoin := by
  unfold State.onCarrierLoss
  split
  · split
    · exact .inr (State.enterLead_endUnit _ _ _ _)
    · split
      · exact .inl (by cases e' <;> rfl)
      · exact .inr (State.enterLead_endUnit _ _ _ _)
  · exact .inl (endUnit_of_desk (State.breakWant_desk _ _) e')

theorem State.onContactOpen_endUnit (y : State) (e e' : EndId) : (y.onContactOpen e).endUnit e' = y.endUnit e'
    ∨ (y.onContactOpen e).endUnit e' = (y.endUnit e').forgetJoin := by
  unfold State.onContactOpen
  split
  · split
    · exact .inr (State.enterLead_endUnit _ _ _ _)
    · exact .inl rfl
  · exact .inl (endUnit_of_desk (State.breakWant_desk _ _) e')

theorem State.enterLead_outbox {s : State} (led : Led) (m : Option MarkFields) (h : s.pet.queue = []) :
    (s.enterLead led m).outbox = s.outbox := by
  rw [State.enterLead_of_nil led m h]
  rfl

theorem State.onCarrierLoss_outbox {y : State} (e : EndId) (h : y.pet.queue = []) :
    (y.onCarrierLoss e).outbox = y.outbox := by
  unfold State.onCarrierLoss
  split
  · split
    · exact State.enterLead_outbox _ _ h
    · split
      · rfl
      · exact State.enterLead_outbox _ _ h
  · exact State.breakWant_outbox _ _

theorem State.onContactOpen_outbox {y : State} (e : EndId) (h : y.pet.queue = []) :
    (y.onContactOpen e).outbox = y.outbox := by
  unfold State.onContactOpen
  split
  · split
    · exact State.enterLead_outbox _ _ h
    · rfl
  · exact State.breakWant_outbox _ _

end Sys2Proof.Machine
end

section
/-! PROOFS. Records that arrive on an end, as far as every kind has it (R3, R8, R9, R10). -/

namespace Sys2Proof.Machine

open Sys2Proof

/-! ## End units under time and hearing -/

/-- An end unit without its counts of ticks and its transmitter. -/
def EndUnit.detector (u : EndUnit) : EndUnit :=
  { u with activeCount := 0, silentCount := 0, octetsLeft := 0, freeTicks := 0, sending := none, waiting := none,
           coming := none }

theorem EndUnit.countTicks_detector (k : Nat) (u : EndUnit) : (u.countTicks k).detector = u.detector := by
  unfold EndUnit.countTicks
  split
  · rfl
  · dsimp only
    split <;> rfl

theorem EndUnit.transmit_detector (t : Nat) (r : TxRecord) (u : EndUnit) : (u.transmit t r).detector = u.detector := by
  unfold EndUnit.transmit
  split <;> rfl

theorem EndUnit.relay_detector (u : EndUnit) : u.relay.detector = u.detector := by
  unfold EndUnit.relay
  split
  · exact EndUnit.transmit_detector _ _ _
  · rfl

theorem EndUnit.sendWaiting_detector (u : EndUnit) : u.sendWaiting.detector = u.detector := by
  unfold EndUnit.sendWaiting
  split <;> rfl

theorem EndUnit.sendNext_detector (t : Nat) (u : EndUnit) : (u.sendNext t).detector = u.detector := by
  have one : ∀ ready ends : Bool, (if ready then u.relay else if ends then u.sendWaiting else u).detector = u.detector := by
    intro ready ends
    cases ready
    · cases ends
      · rfl
      · exact u.sendWaiting_detector
    · exact u.relay_detector
  exact one _ _

theorem EndUnit.sentBy_detector (t : Nat) (u : EndUnit) : (u.sentBy t).detector = u.detector := by
  unfold EndUnit.sentBy
  rw [EndUnit.sendNext_detector, EndUnit.sendNext_detector, EndUnit.sendNext_detector, EndUnit.sendNext_detector]

/-- Time leaves what an end unit has detected. -/
theorem State.advance_detector (s : State) (k : Nat) (e : EndId) :
    ((s.advance k).endUnit e).detector = (s.endUnit e).detector := by
  unfold State.advance
  split
  · cases e
    · exact (EndUnit.sentBy_detector _ _).trans (EndUnit.countTicks_detector _ _)
    · exact (EndUnit.sentBy_detector _ _).trans (EndUnit.countTicks_detector _ _)
  · cases e
    · exact EndUnit.sentBy_detector _ _
    · exact EndUnit.sentBy_detector _ _

theorem State.hear_detector (s : State) (e : EndId) (n : Nat) (e' : EndId) :
    ((s.hear e n).endUnit e').detector = (s.endUnit e').detector := by
  unfold State.hear
  split
  · rfl
  · cases e <;> cases e' <;> rfl

theorem State.hear_withEnds (s : State) (e : EndId) (n : Nat) : ∃ u v, s.hear e n = s.withEnds u v := by
  unfold State.hear
  split
  · exact ⟨s.e1, s.e2, rfl⟩
  · exact s.mapEnd_withEnds _ _

theorem State.passOn_withEnds (s : State) (e : EndId) (p : Path) (i k : Nat) (c : List Octet) :
    ∃ u v, s.passOn e p i k c = s.withEnds u v := by
  unfold State.passOn
  repeat' split
  all_goals first
    | exact ⟨s.e1, s.e2, rfl⟩
    | exact s.mapEnd_withEnds _ _

theorem State.passOn_detector (s : State) (e : EndId) (p : Path) (i k : Nat) (c : List Octet) (e' : EndId) :
    ((s.passOn e p i k c).endUnit e').detector = (s.endUnit e').detector := by
  unfold State.passOn
  repeat' split
  all_goals first
    | rfl
    | (cases e <;> cases e' <;> rfl)

theorem State.passCut_withEnds (s : State) (e : EndId) (os : List Octet) : ∃ u v, s.passCut e os = s.withEnds u v := by
  unfold State.passCut
  split
  · exact s.passOn_withEnds _ _ _ _ _
  · exact ⟨s.e1, s.e2, rfl⟩

/-- The state in which a record of an end is judged, before the end passes it on. -/
def State.recordCame (s : State) (k : Nat) (e : EndId) (os : List Octet) : State := (s.advance k).hear e os.length

theorem State.recordCame_interior (s : State) (k : Nat) (e : EndId) (os : List Octet) :
    (s.recordCame k e os).interior = (s.advance k).interior := by
  obtain ⟨u, v, h⟩ := (s.advance k).hear_withEnds e os.length
  rw [State.recordCame, h]
  rfl

theorem State.recordCame_link (s : State) (k : Nat) (e : EndId) (os : List Octet) :
    (s.recordCame k e os).link = s.link := by
  obtain ⟨u, v, h⟩ := (s.advance k).hear_withEnds e os.length
  rw [State.recordCame, h]
  exact s.advance_link k

theorem State.recordCame_outbox (s : State) (k : Nat) (e : EndId) (os : List Octet) :
    (s.recordCame k e os).outbox = s.outbox := by
  obtain ⟨u, v, h⟩ := (s.advance k).hear_withEnds e os.length
  rw [State.recordCame, h]
  exact s.advance_outbox k

theorem State.recordCame_detector (s : State) (k : Nat) (e : EndId) (os : List Octet) (e' : EndId) :
    ((s.recordCame k e os).endUnit e').detector = (s.endUnit e').detector :=
  ((s.advance k).hear_detector e _ e').trans (s.advance_detector k e')

theorem Passed.recordCame (s : State) (k : Nat) (e : EndId) (os : List Octet) : Passed s (s.recordCame k e os) :=
  (Passed.advance s k).of_interior (s.recordCame_interior k e os)

theorem State.recordCame_now (s : State) (k : Nat) (e : EndId) (os : List Octet) : (s.recordCame k e os).now = s.now + k :=
  (congrArg State.now (s.recordCame_interior k e os) :).trans (s.advance_now k)

/-- A state whose end units have detected the same, in a part where no more than time has passed, has the same
conditions. -/
theorem Passed.condition {s y : State} (h : Passed s y) {e : EndId}
    (hd : (y.endUnit e).detector = (s.endUnit e).detector) : y.condition e = s.condition e :=
  State.condition_congr h.powered h.node e (congrArg EndUnit.mode hd :) (congrArg EndUnit.segregated hd :)

/-- A good record at a powered part is passed on and handed on along its path (R8, R9). -/
theorem receive_good {s : State} {k : Nat} {e : EndId} {kind : Octet} {os : List Octet} (hg : goodRecordOf kind os = true)
    (hp : s.powered = true) (hand : Path → State → State) : receive k e kind os s hand =
      finish (s.recordCame k e os) (hand ((s.recordCame k e os).pathOf e os) ((s.recordCame k e os).passOn e
        ((s.recordCame k e os).pathOf e os) (s.now + k) os.length (relayCopy os))) := by
  unfold receive
  rw [if_neg (by rw [hg]; decide), if_neg (by rw [hp]; decide), ← s.recordCame_now k e os]
  rfl

/-- A link at rest that the end of a step finds with no notice stays as it is. -/
theorem settle_link_atRest {b x : State} (h : AtRest x) : (State.settle b x).link = x.link := by
  rw [settle_link_of_no_notice b x h.1, State.beginFrame_atRest x h]

end Sys2Proof.Machine
end

section
/-! PROOFS. The ends: contact, carrier, mode, records that only pass through, bad records, and the silence of a foreign
formation (R1 to R3, R6, R8, R10, R12, R16, R20). -/

namespace Sys2Proof.Machine

open Sys2Proof

/-! ## SET_END_MODE -/

theorem State.capture_congr {s t : State} (hf : t.form.node = s.form.node) (ht : t.timer = s.timer) :
    t.capture = s.capture := by
  unfold State.capture State.trainTime
  rw [hf, ht]

theorem capture_of_interior {s t : State} (h : t.interior = s.interior) : t.capture = s.capture :=
  State.capture_congr (congrArg (fun x : State => x.form.node) h :) (congrArg State.timer h :)

/-- The state in which a carrier loss does its work, its notice made. -/
def State.lossNoticed (y : State) (e : EndId) : State :=
  (if y.form.node = .detached then y else y.notify rankOther (.endEvent e (.carrier .absent) y.capture)).mapEnd e
    EndUnit.toQuiet

theorem State.carrierEvent_absent (y : State) (e : EndId) :
    y.carrierEvent e .absent = (y.lossNoticed e).onCarrierLoss e := rfl

theorem State.lossNoticed_interior (y : State) (e : EndId) : (y.lossNoticed e).interior = y.interior := by
  unfold State.lossNoticed
  rw [State.mapEnd_interior]
  split <;> rfl

theorem State.lossNoticed_endUnit (y : State) (e : EndId) : (y.lossNoticed e).endUnit e = (y.endUnit e).toQuiet := by
  unfold State.lossNoticed
  rw [State.endUnit_mapEnd]
  congr 1
  cases e <;> split <;> rfl

/-- The end unit after a carrier loss: detection in QUIET, the join forgotten where the part came to LEAD. -/
theorem State.carrierLoss_endUnit (y : State) (e : EndId) : (y.carrierEvent e .absent).endUnit e = (y.endUnit e).toQuiet
    ∨ (y.carrierEvent e .absent).endUnit e = (y.endUnit e).toQuiet.forgetJoin := by
  rw [State.carrierEvent_absent, ← State.lossNoticed_endUnit]
  exact State.onCarrierLoss_endUnit _ _ _

/-- Settles O24. -/
theorem endModeSet : Obligations.EndModeSet := by
  intro s f e m h hp
  have hx : exec .setEndMode s = finish s ((s.setMode e m).reply f .done .empty) := by
    rw [exec_setEndMode, execSetEndMode, serve_ready _ h hp]
  refine ⟨fun hm => ?_, fun hm => ?_⟩
  · rw [hx, State.setMode, if_pos hm, finish_reply_self h]
  · let y := s.mapEnd e (EndUnit.withMode m)
    have hy : y.endUnit e = (s.endUnit e).withMode m := s.endUnit_mapEnd e _
    have hset : s.setMode e m = if m = .isolated && (s.endUnit e).carrier = .present then y.carrierEvent e .absent else y :=
      if_neg hm
    have hu : (s.setMode e m).endUnit e = (s.endUnit e).withMode m
        ∨ (s.setMode e m).endUnit e = ((s.endUnit e).withMode m).toQuiet
        ∨ (s.setMode e m).endUnit e = ((s.endUnit e).withMode m).toQuiet.forgetJoin := by
      rw [hset, ← hy]
      split
      · exact .inr (y.carrierLoss_endUnit e)
      · exact .inl rfl
    have field : ∀ {α : Type} (p : EndUnit → α), (∀ u : EndUnit, p u.toQuiet = p u) → (∀ u : EndUnit, p u.forgetJoin = p u) →
        p ((s.setMode e m).endUnit e) = p ((s.endUnit e).withMode m) := by
      intro α p hq hj
      rcases hu with hu | hu | hu
      · rw [hu]
      · rw [hu, hq]
      · rw [hu, hj, hq]
    refine ⟨_, hx, ?_, ?_, ?_, ?_, ?_, ?_, fun hi hc => ?_⟩
    · rw [settle_mode, State.reply_endUnit]; exact field EndUnit.mode (fun _ => rfl) fun _ => rfl
    · rw [settle_carrier, State.reply_endUnit]; exact field EndUnit.carrier (fun _ => rfl) fun _ => rfl
    · rw [settle_activeCount, State.reply_endUnit]; exact field EndUnit.activeCount (fun _ => rfl) fun _ => rfl
    · rw [settle_silentCount, State.reply_endUnit]; exact field EndUnit.silentCount (fun _ => rfl) fun _ => rfl
    · rw [settle_contact, State.reply_endUnit]; exact field EndUnit.contact (fun _ => rfl) fun _ => rfl
    · have hsh : (s.setMode e m).shell = y.shell := by
        rw [hset]
        split
        · exact State.carrierEvent_shell _ _ _
        · rfl
      rw [settle_mode, State.reply_endUnit]
      exact (congrArg Sense.mode (sense_of_shell hsh e.other)).trans (congrArg EndUnit.mode (s.endUnit_mapEnd_other e _))
    · have hs : s.setMode e m = (y.lossNoticed e).onCarrierLoss e := by
        rw [hset, if_pos (by simp [hi, hc])]
        rfl
      have hcause : ((y.lossNoticed e).endUnit e).cause = .isolated := by
        rw [State.lossNoticed_endUnit, hy, hi]
        rfl
      have hcap : (y.lossNoticed e).capture = s.capture :=
        (capture_of_interior (y.lossNoticed_interior e)).trans (capture_of_interior (s.mapEnd_interior e _))
      have hpassed : Passed s (y.lossNoticed e) :=
        ((Passed.refl s).mapEnd e _).of_interior (y.lossNoticed_interior e)
      rw [← hcause, ← hcap]
      refine State.onCarrierLoss_told hpassed ?_ ?_
      · rw [settle_pet, ← hs]; rfl
      · rw [settle_form, ← hs]; rfl

/-! ## Carrier -/

theorem State.advance_sense (s : State) (k : Nat) (e : EndId) : ((s.advance k).endUnit e).sense = (s.endUnit e).sense :=
  sense_of_shell (s.advance_shell k) e

theorem State.advance_carrier (s : State) (k : Nat) (e : EndId) :
    ((s.advance k).endUnit e).carrier = (s.endUnit e).carrier := (congrArg Sense.carrier (s.advance_sense k e) :)
theorem State.advance_contact (s : State) (k : Nat) (e : EndId) :
    ((s.advance k).endUnit e).contact = (s.endUnit e).contact := (congrArg Sense.contact (s.advance_sense k e) :)
theorem State.advance_mode (s : State) (k : Nat) (e : EndId) :
    ((s.advance k).endUnit e).mode = (s.endUnit e).mode := (congrArg Sense.mode (s.advance_sense k e) :)

/-- A carrier change that is due takes place as the carrier stands (R3). -/
theorem exec_carrierChange_due {s : State} {k : Nat} {e : EndId} (hp : s.powered = true) (hm : (s.endUnit e).mode = .line)
    (hd : ((s.advance k).endUnit e).carrierDue = true) :
    ((s.endUnit e).carrier = .absent → exec (.carrierChange k e) s =
      finish (s.advance k) (((s.advance k).mapEnd e EndUnit.carrierUp).carrierEvent e .present))
    ∧ ((s.endUnit e).carrier = .present → exec (.carrierChange k e) s =
      finish (s.advance k) (((s.advance k).mapEnd e EndUnit.carrierDown).carrierEvent e .absent)) := by
  rw [exec_carrierChange, execCarrierChange, whenPowered_of_powered hp]
  dsimp only
  rw [if_neg (by simp [hm, hd]), s.advance_carrier k e]
  exact ⟨fun hc => by rw [hc], fun hc => by rw [hc]⟩

/-- Settles O37. -/
theorem carrierFollowsTheLine : Obligations.CarrierFollowsTheLine := by
  intro s e k hp hrest hm free due
  have hdue : ((s.advance k).endUnit e).carrierDue = true ↔ due := by
    unfold EndUnit.carrierDue
    rw [s.advance_carrier k e]
    cases hc : (s.endUnit e).carrier with
    | absent =>
      exact decide_eq_true_iff.trans
        ⟨fun h => .inl ⟨hc, h⟩, fun h => (h.resolve_right fun hq => by rw [hc] at hq; cases hq.1).2⟩
    | present =>
      exact decide_eq_true_iff.trans
        ⟨fun h => .inr ⟨hc, h⟩, fun h => (h.resolve_left fun hq => by rw [hc] at hq; cases hq.1).2⟩
  have hout : (s.advance k).outbox = [] := (s.advance_outbox k).trans hrest.1
  refine ⟨fun hn => ?_, fun hd => ?_⟩
  · have hf : ((s.advance k).endUnit e).carrierDue = false := by
      rw [← Bool.not_eq_true, hdue]; exact hn
    rw [exec_carrierChange, execCarrierChange, whenPowered_of_powered hp]
    dsimp only
    rw [if_pos (by simp [hf])]
  · obtain ⟨habsent, hpresent⟩ := exec_carrierChange_due hp hm (hdue.mpr hd)
    cases hc : (s.endUnit e).carrier with
    | absent =>
      have hx := habsent hc
      let y := (s.advance k).mapEnd e EndUnit.carrierUp
      have hev : y.carrierEvent e .present =
          if y.form.node = .detached then y else y.notify rankOther (.endEvent e (.carrier .present) y.capture) := rfl
      have hu : (y.carrierEvent e .present).endUnit e = y.endUnit e := by
        rw [hev]
        cases e <;> split <;> rfl
      have hye : y.endUnit e = ((s.advance k).endUnit e).carrierUp := State.endUnit_mapEnd _ _ _
      have hyn : y.form.node = s.form.node := ((Passed.advance s k).mapEnd e _).node
      refine ⟨_, hx, ?_, fun _ => ⟨?_, fun hnd => ?_⟩, fun h => by simp at h, fun hdet => ?_⟩
      · rw [settle_freeTicks, hu, hye]; rfl
      · rw [settle_carrier, hu, hye]; rfl
      · rw [hev, if_neg (by rw [hyn]; exact hnd)]
        refine settle_queues_only (r := rankOther) ?_ (by decide) rfl
        rw [← capture_of_interior ((s.advance k).mapEnd_interior e EndUnit.carrierUp)]
        show y.outbox ++ _ = _
        rw [(s.advance k).mapEnd_outbox e, hout]
        rfl
      · rw [hev, if_pos (by rw [hyn]; exact hdet)]
        have hyl : y.link = s.link := ((s.advance k).mapEnd_link e _).trans (s.advance_link k)
        have hyr : AtRest y := ⟨((s.advance k).mapEnd_outbox e _).trans hout, by rw [hyl]; exact hrest.2⟩
        refine ⟨(settle_link_atRest hyr).trans hyl, ?_, ?_⟩
        · rw [settle_pet]; exact (s.advance k).mapEnd_pet e _
        · rw [settle_form]; exact (s.advance k).mapEnd_form e _
    | present =>
      have hx := hpresent hc
      let y := (s.advance k).mapEnd e EndUnit.carrierDown
      have hye : y.endUnit e = ((s.advance k).endUnit e).carrierDown := State.endUnit_mapEnd _ _ _
      have hyn : y.form.node = s.form.node := ((Passed.advance s k).mapEnd e _).node
      have hyo : y.outbox = [] := ((s.advance k).mapEnd_outbox e _).trans hout
      have hcap : (y.lossNoticed e).capture = (s.advance k).capture :=
        (capture_of_interior (y.lossNoticed_interior e)).trans (capture_of_interior ((s.advance k).mapEnd_interior e _))
      have hpassed : Passed s (y.lossNoticed e) :=
        ((Passed.advance s k).mapEnd e _).of_interior (y.lossNoticed_interior e)
      have field : ∀ {α : Type} (p : EndUnit → α), (∀ u : EndUnit, p u.forgetJoin = p u) →
          p ((y.carrierEvent e .absent).endUnit e) = p (((s.advance k).endUnit e).carrierDown).toQuiet := by
        intro α p hj
        rw [← hye]
        rcases y.carrierLoss_endUnit e with hu | hu
        · rw [hu]
        · rw [hu, hj]
      refine ⟨_, hx, ?_, fun h => by simp at h, fun _ => ⟨?_, ?_, ?_, fun hnd hq => ?_⟩, fun hdet => ?_⟩
      · rw [settle_freeTicks]; exact field EndUnit.freeTicks fun _ => rfl
      · rw [settle_carrier]; exact field EndUnit.carrier fun _ => rfl
      · refine (settle_quiet_end ?_ EndUnit.phase (fun _ => rfl) fun _ => rfl).trans (field EndUnit.phase fun _ => rfl)
        rcases y.carrierLoss_endUnit e with hu | hu <;> rw [hu] <;> rfl
      · have hcon := s.advance_contact k e
        have hmode : ((s.advance k).endUnit e).mode = .line := (s.advance_mode k e).trans hm
        have hcause : ((y.lossNoticed e).endUnit e).cause = if (s.endUnit e).contact = .opened then .opened else .line := by
          rw [State.lossNoticed_endUnit, hye, ← hcon, EndUnit.cause]
          rw [if_neg (by show ((s.advance k).endUnit e).mode ≠ _; rw [hmode]; decide)]
          show (match ((s.advance k).endUnit e).contact with | .opened => _ | .closed | .unknown => _) = _
          cases ((s.advance k).endUnit e).contact <;> rfl
        rw [← hcause, ← hcap]
        exact State.onCarrierLoss_told hpassed (settle_pet _ _) (settle_form _ _)
      · have hyq : (y.lossNoticed e).pet.queue = [] := hpassed.queue.trans hq
        refine settle_queues_only (r := rankOther) ?_ (by decide) rfl
        rw [State.carrierEvent_absent, State.onCarrierLoss_outbox e hyq, State.lossNoticed, State.mapEnd_outbox,
          if_neg (by rw [hyn]; exact hnd), State.notify_outbox, hyo,
          capture_of_interior ((s.advance k).mapEnd_interior e EndUnit.carrierDown)]
        rfl
      · have hzn : (y.lossNoticed e).form.node = .detached := hpassed.node.trans hdet
        have hev : y.carrierEvent e .absent = y.lossNoticed e := by
          rw [State.carrierEvent_absent, (State.onCarrierLoss_work _ e).elsewhere (by rw [hzn]; simp)]
          unfold State.breakWant
          rw [if_neg (by rw [hzn]; simp)]
        have hzi : y.lossNoticed e = y.mapEnd e EndUnit.toQuiet := by
          unfold State.lossNoticed
          rw [if_pos (hyn.trans hdet)]
        have hzl : (y.mapEnd e EndUnit.toQuiet).link = s.link :=
          (y.mapEnd_link e _).trans (((s.advance k).mapEnd_link e _).trans (s.advance_link k))
        have hzr : AtRest (y.mapEnd e EndUnit.toQuiet) := ⟨(y.mapEnd_outbox e _).trans hyo, by rw [hzl]; exact hrest.2⟩
        rw [hev, hzi]
        refine ⟨(settle_link_atRest hzr).trans hzl, ?_, ?_⟩
        · rw [settle_pet, y.mapEnd_pet e]; exact (s.advance k).mapEnd_pet e _
        · rw [settle_form, y.mapEnd_form e]; exact (s.advance k).mapEnd_form e _

end Sys2Proof.Machine
end

section
/-! PROOFS. Contact samples, records that only pass through, bad records, foreign silence, and a split that times out
(R1, R2, R8, R10, R12, R16, R20, R133). -/

namespace Sys2Proof.Machine

open Sys2Proof

/-! ## The contact filter (R1) -/

/-- The level a sample gives. -/
def levelOf (closed : Bool) : ContactState := if closed then .closed else .opened

/-- The count a sample of the other level makes. -/
def EndUnit.sampleCount (u : EndUnit) (closed : Bool) : Nat :=
  if u.lastSample = some (!closed) then 1 else u.filterCount + 1

theorem EndUnit.sample_same {u : EndUnit} {q : Nat} {closed : Bool} (h : u.contact = levelOf closed) :
    u.sample q closed = ({ u with filterCount := 0, lastSample := some closed }, false) := if_pos h

theorem EndUnit.sample_other {u : EndUnit} {q : Nat} {closed : Bool} (h : u.contact ≠ levelOf closed) :
    u.sample q closed = if q ≤ u.sampleCount closed
      then ({ u with contact := levelOf closed, filterCount := 0, lastSample := some closed }, true)
      else ({ u with filterCount := u.sampleCount closed, lastSample := some closed }, false) := by
  refine (if_neg h).trans ?_
  unfold EndUnit.sampleCount
  cases hl : u.lastSample with
  | none => rfl
  | some l => cases l <;> cases closed <;> rfl

theorem State.tryReport_outbox (s : State) (e : EndId) : (s.tryReport e).outbox = s.outbox := by
  unfold State.tryReport
  dsimp only
  split
  · split
    · exact s.mapEnd_outbox e _
    · split
      · split
        · exact (State.queueWant_joinSeen_outbox _ _ _ _).trans (s.mapEnd_outbox e _)
        · rfl
      · rfl
  · rfl

/-- The state in which a qualified OPEN does its work, its notices made. -/
def State.openNoticed (s : State) (e : EndId) : State :=
  let s1 := s.notify rankOther (.endEvent e (.contact .opened) s.capture)
  (if s.fixedEnd e then s1.notify rankOther (.fixedOpened e s.capture) else s1).mapEnd e fun u =>
    { u.toQuiet with segregated := false, attempts := 0 }

theorem State.qualified_open (s : State) (e : EndId) : s.qualified e false = (s.openNoticed e).onContactOpen e := rfl

theorem State.openNoticed_interior (s : State) (e : EndId) : (s.openNoticed e).interior = s.interior := by
  unfold State.openNoticed
  dsimp only
  rw [State.mapEnd_interior]
  split <;> rfl

theorem State.openNoticed_endUnit (s : State) (e : EndId) :
    (s.openNoticed e).endUnit e = { (s.endUnit e).toQuiet with segregated := false, attempts := 0 } := by
  unfold State.openNoticed
  dsimp only
  rw [State.endUnit_mapEnd]
  cases e <;> split <;> rfl

theorem State.openNoticed_outbox (s : State) (e : EndId) : (s.openNoticed e).outbox =
    s.outbox ++ (rankOther, .endEvent e (.contact .opened) s.capture)
      :: if s.fixedEnd e then [(rankOther, .fixedOpened e s.capture)] else [] := by
  unfold State.openNoticed
  dsimp only
  rw [State.mapEnd_outbox]
  split
  · simp
  · rfl

theorem State.qualified_closed_outbox (s : State) (e : EndId) :
    (s.qualified e true).outbox = s.outbox ++ [(rankOther, .endEvent e (.contact .closed) s.capture)] :=
  State.tryReport_outbox _ e

/-! ## The car link under end events -/

theorem State.queueWant_link (s : State) (w : Want) : (s.queueWant w).link = s.link :=
  (congrArg State.link (s.queueWant_desk w) :)

theorem State.tryReport_link (s : State) (e : EndId) : (s.tryReport e).link = s.link := by
  unfold State.tryReport
  dsimp only
  split
  · split
    · exact s.mapEnd_link e _
    · split
      · split
        · exact (State.queueWant_link _ _).trans (s.mapEnd_link e _)
        · rfl
      · rfl
  · rfl

theorem State.enterLead_link (s : State) (l : Led) (m : Option MarkFields) : (s.enterLead l m).link = s.link :=
  (congrArg State.link (s.enterLead_station l m) :)

theorem State.onContactOpen_link (s : State) (e : EndId) : (s.onContactOpen e).link = s.link := by
  unfold State.onContactOpen
  split
  · split
    · exact State.enterLead_link _ _ _
    · rfl
  · exact (congrArg State.link (s.breakWant_desk e) :)

theorem State.qualified_link (s : State) (e : EndId) (closed : Bool) : (s.qualified e closed).link = s.link := by
  cases closed
  · rw [State.qualified_open, State.onContactOpen_link]
    unfold State.openNoticed
    dsimp only
    rw [State.mapEnd_link]
    split <;> rfl
  · exact State.tryReport_link _ e

/-! ## CONTACT_SAMPLE -/

/-- The part once it has taken a sample of a contact, before a qualification does its work. -/
def State.sampled (s : State) (e : EndId) (n : Nat) (closed : Bool) : State :=
  (s.advanceTo n).mapEnd e fun _ =>
    { (((s.advanceTo n).endUnit e).sample (s.advanceTo n).settings.qualifyCount closed).1 with
      nextSample := some (n + (s.advanceTo n).settings.sampleInterval) }

theorem exec_contactSample_due {s : State} {e : EndId} {n : Nat} (closed : Bool) (hp : s.powered = true)
    (hn : (s.endUnit e).nextSample = some n) : exec (.contactSample e closed) s = finish (s.advanceTo n)
      (if (((s.advanceTo n).endUnit e).sample (s.advanceTo n).settings.qualifyCount closed).2
        then (s.sampled e n closed).qualified e closed else s.sampled e n closed) := by
  rw [exec_contactSample, execContactSample, whenPowered_of_powered hp, hn]
  rfl

theorem sampled_passed (s : State) (e : EndId) (n : Nat) (closed : Bool) : Passed s (s.sampled e n closed) :=
  (Passed.advance s (n - s.now)).mapEnd e _

theorem sampled_endUnit (s : State) (e : EndId) (n : Nat) (closed : Bool) : (s.sampled e n closed).endUnit e =
    { (((s.advanceTo n).endUnit e).sample s.settings.qualifyCount closed).1 with
      nextSample := some (n + s.settings.sampleInterval) } := by
  have hs : (s.advanceTo n).settings = s.settings := (Passed.advance s (n - s.now)).settings
  unfold State.sampled
  rw [State.endUnit_mapEnd, hs]

theorem sampled_capture (s : State) (e : EndId) (n : Nat) (closed : Bool) :
    (s.sampled e n closed).capture = (s.advanceTo n).capture := capture_of_interior (State.mapEnd_interior _ e _)

/-- A qualification tells of itself, and an OPEN at a fixed end of that too (R2). -/
theorem qualification_told {s : State} {e : EndId} {n : Nat} {closed : Bool} (b : State) (hr : AtRest s)
    (hq : s.pet.queue = []) (hl : s.link.notices.length ≤ 30) :
    Queues (State.settle b ((s.sampled e n closed).qualified e closed))
        (.endEvent e (.contact (levelOf closed)) (s.advanceTo n).capture)
      ∧ (closed = false → s.fixedEnd e = true →
        Queues (State.settle b ((s.sampled e n closed).qualified e closed)) (.fixedOpened e (s.advanceTo n).capture)) := by
  let y := s.sampled e n closed
  have hy : Passed s y := sampled_passed s e n closed
  have hyo : y.outbox = [] := (State.mapEnd_outbox _ e _).trans ((s.advance_outbox _).trans hr.1)
  have hyl : (y.qualified e closed).link = s.link :=
    (State.qualified_link y e closed).trans ((State.mapEnd_link _ e _).trans (s.advance_link _))
  have hcap : y.capture = (s.advanceTo n).capture := sampled_capture s e n closed
  cases closed with
  | true =>
    have ho : (y.qualified e true).outbox = [(rankOther, .endEvent e (.contact .closed) (s.advanceTo n).capture)] := by
      rw [State.qualified_closed_outbox, hyo, hcap]; rfl
    exact ⟨settle_queues_only ho (by decide) rfl, fun h => by cases h⟩
  | false =>
    have hno : (y.openNoticed e).pet.queue = [] :=
      (congrArg (fun x : State => x.pet.queue) (y.openNoticed_interior e) :).trans (hy.queue.trans hq)
    have ho : (y.qualified e false).outbox = (rankOther, .endEvent e (.contact .opened) (s.advanceTo n).capture)
        :: if s.fixedEnd e then [(rankOther, .fixedOpened e (s.advanceTo n).capture)] else [] := by
      rw [State.qualified_open, State.onContactOpen_outbox e hno, State.openNoticed_outbox, hyo, hcap, hy.fixedEnd]
      rfl
    have hnc : (y.qualified e false).NoChanges := by
      refine .inr fun p hp => ?_
      rw [ho] at hp
      have hrank : p.1 = rankOther := by
        split at hp
        · rcases List.mem_cons.mp hp with rfl | hp
          · rfl
          · rw [List.mem_singleton.mp hp]
        · rw [List.mem_singleton.mp hp]
      rw [hrank]
      decide
    have hroom : (y.qualified e false).link.notices.length + (y.qualified e false).outbox.length ≤ 32 := by
      rw [hyl, ho, List.length_cons]
      split <;> simp only [List.length_cons, List.length_nil] <;> omega
    refine ⟨settle_queues (r := rankOther) ?_ (by decide) rfl hnc hroom, fun _ hf => ?_⟩
    · rw [ho]; exact List.mem_cons_self
    · refine settle_queues (r := rankOther) ?_ (by decide) rfl hnc hroom
      rw [ho, if_pos hf]
      exact List.mem_cons_of_mem _ (List.mem_singleton.mpr rfl)

/-- Settles O36. -/
theorem contactIsFiltered : Obligations.ContactIsFiltered := by
  intro s e closed n hp hn u level count
  have hx := exec_contactSample_due closed hp hn
  let t0 := s.advanceTo n
  let y := s.sampled e n closed
  have hsense : (t0.endUnit e).sense = u.sense := State.advance_sense s _ e
  have hcontact : (t0.endUnit e).contact = u.contact := (congrArg Sense.contact hsense :)
  have hcount : (t0.endUnit e).sampleCount closed = count := by
    have hl : (t0.endUnit e).lastSample = u.lastSample := (congrArg Sense.lastSample hsense :)
    have hf : (t0.endUnit e).filterCount = u.filterCount := (congrArg Sense.filterCount hsense :)
    unfold EndUnit.sampleCount
    rw [hl, hf]
  have hset : t0.settings = s.settings := (Passed.advance s (n - s.now)).settings
  let q := s.settings.qualifyCount
  let r := (t0.endUnit e).sample q closed
  have hx' : exec (.contactSample e closed) s = finish t0 (if r.2 then y.qualified e closed else y) := by
    rw [hx, hset]
  have hu : y.endUnit e = { r.1 with nextSample := some (n + s.settings.sampleInterval) } := sampled_endUnit s e n closed
  have hts : ((State.settle t0 (if r.2 then y.qualified e closed else y)).endUnit e).sense = (y.endUnit e).sense := by
    rw [settle_sense]
    refine sense_of_shell ?_ e
    split
    · exact State.qualified_shell y e closed
    · rfl
  have hlast : r.1.lastSample = some closed := by
    by_cases hc : (t0.endUnit e).contact = levelOf closed
    · exact congrArg (fun p => p.1.lastSample) (EndUnit.sample_same hc)
    · refine (congrArg (fun p => p.1.lastSample) (EndUnit.sample_other hc)).trans ?_
      split <;> rfl
  have sensed : ∀ {α : Type} (p : Sense → α),
      p ((State.settle t0 (if r.2 then y.qualified e closed else y)).endUnit e).sense =
        p ({ r.1 with nextSample := some (n + s.settings.sampleInterval) } : EndUnit).sense := by
    intro α p
    rw [hts, hu]
  refine ⟨_, hx', sensed Sense.nextSample, (sensed Sense.lastSample).trans hlast, fun hc => ?_, fun hc hlt => ?_,
    fun hc hle => ?_⟩
  · have hr : r = ({ t0.endUnit e with filterCount := 0, lastSample := some closed }, false) :=
      EndUnit.sample_same (hcontact.trans hc)
    refine ⟨(sensed Sense.contact).trans ?_, (sensed Sense.filterCount).trans ?_⟩
    · exact (congrArg (fun p => p.1.contact) hr).trans (hcontact.trans hc)
    · exact congrArg (fun p => p.1.filterCount) hr
  · have hr : r = ({ t0.endUnit e with filterCount := count, lastSample := some closed }, false) := by
      rw [← hcount]
      exact (EndUnit.sample_other (hcontact ▸ hc)).trans (if_neg (by rw [hcount]; exact Nat.not_le.mpr hlt))
    refine ⟨(sensed Sense.contact).trans ?_, (sensed Sense.filterCount).trans ?_⟩
    · exact (congrArg (fun p => p.1.contact) hr).trans hcontact
    · exact congrArg (fun p => p.1.filterCount) hr
  · have hr : r = ({ t0.endUnit e with contact := level, filterCount := 0, lastSample := some closed }, true) :=
      (EndUnit.sample_other (hcontact ▸ hc)).trans (if_pos (by rw [hcount]; exact hle))
    have hq : (if r.2 then y.qualified e closed else y) = y.qualified e closed := if_pos (by rw [hr])
    have hyu : y.endUnit e = { t0.endUnit e with
        contact := level, filterCount := 0, lastSample := some closed, nextSample := some (n + s.settings.sampleInterval) } := by
      rw [hu, hr]
    refine ⟨(sensed Sense.contact).trans ?_, (sensed Sense.filterCount).trans ?_, fun hcl => ?_, fun hcl => ?_,
      fun hrest hqueue hlen => ?_⟩
    · exact congrArg (fun p => p.1.contact) hr
    · exact congrArg (fun p => p.1.filterCount) hr
    · rw [hq]
      subst hcl
      have hz := y.openNoticed_endUnit e
      have field : ∀ {α : Type} (p : EndUnit → α), (∀ u : EndUnit, p u.forgetJoin = p u) →
          p ((y.qualified e false).endUnit e) = p { (y.endUnit e).toQuiet with segregated := false, attempts := 0 } := by
        intro α p hj
        rw [State.qualified_open, ← hz]
        rcases (y.openNoticed e).onContactOpen_endUnit e e with h | h
        · rw [h]
        · rw [h, hj]
      refine ⟨?_, ?_, ?_⟩
      · rw [settle_segregated]; exact field EndUnit.segregated fun _ => rfl
      · rw [settle_attempts]; exact field EndUnit.attempts fun _ => rfl
      · refine (settle_quiet_end ?_ EndUnit.phase (fun _ => rfl) fun _ => rfl).trans (field EndUnit.phase fun _ => rfl)
        rw [State.qualified_open]
        rcases (y.openNoticed e).onContactOpen_endUnit e e with h | h <;> rw [h, hz] <;> rfl
    · rw [hq]
      subst hcl
      have hcause : ((y.openNoticed e).endUnit e).cause = if u.mode = .isolated then .isolated else .opened := by
        have hm : (t0.endUnit e).mode = u.mode := (congrArg Sense.mode hsense :)
        rw [State.openNoticed_endUnit, hyu, ← hm]
        unfold EndUnit.cause
        rfl
      have hcap : (y.openNoticed e).capture = t0.capture :=
        (capture_of_interior (y.openNoticed_interior e)).trans (sampled_capture s e n false)
      have hpassed : Passed s (y.openNoticed e) := (sampled_passed s e n false).of_interior (y.openNoticed_interior e)
      rw [← hcause, ← hcap]
      exact ((y.openNoticed e).onContactOpen_work e).told hpassed (settle_pet _ _) (settle_form _ _)
    · rw [hq]
      exact qualification_told t0 hrest hqueue hlen

end Sys2Proof.Machine
end

section
/-! PROOFS. Records that only pass through, bad records, foreign silence, and a split that times out (R8, R10, R12, R16,
R20, R133). -/

namespace Sys2Proof.Machine

open Sys2Proof

/-! ## Records in DETACHED -/

theorem sealRecord_ne_nil (body : List Octet) : sealRecord body ≠ [] := by
  intro h
  have hl := sealRecord_length body
  rw [h] at hl
  cases hl

/-- A copy that becomes ready at a free transmitter is sent whole (R10). -/
theorem EndUnit.sentBy_ready {u : EndUnit} {t : Nat} {r : TxRecord} (hs : u.sending = none)
    (hc : u.coming = some (t, r)) (hr : r.octets ≠ []) :
    (u.sentBy t).sending = some { record := r, ends := t + r.octets.length } := by
  have hpos : t < t + r.octets.length := Nat.lt_add_of_pos_right (List.length_pos_of_ne_nil hr)
  have h1 : (u.sendNext t).sending = some { record := r, ends := t + r.octets.length } := by
    simp [EndUnit.sendNext, hs, hc, EndUnit.relay, EndUnit.transmit]
  have stays : ∀ v : EndUnit, v.sending = some { record := r, ends := t + r.octets.length } →
      (v.sendNext t).sending = some { record := r, ends := t + r.octets.length } :=
    fun v hv => (EndUnit.sendNext_busy hv hpos).1
  exact stays _ (stays _ (stays _ h1))

theorem State.rollTaken_detached {s : State} (h : s.form.node = .detached) (e : EndId) : s.rollTaken e = false := by
  unfold State.rollTaken
  rw [h]
  rfl

/-- Settles O38: in DETACHED the path is BYPASS, and no block takes what passes it. -/
theorem detachedPassesRecordsThrough : Obligations.DetachedPassesRecordsThrough := by
  intro s e os k hp hrest hn ha h1 h2 u copy through
  let t0 := s.recordCame k e os
  let x := t0.sendRelayed e.other (s.now + k) os.length (relayCopy os)
  have hpass : Passed s t0 := Passed.recordCame s k e os
  have hmode : ∀ e', (t0.endUnit e').mode = .line := by
    intro e'
    refine (congrArg EndUnit.mode (s.recordCame_detector k e os e') :).trans ?_
    cases e'
    · exact h1
    · exact h2
  have hnode : t0.form.node = .detached := hpass.node.trans hn
  have hcond : t0.condition e = .bypass := by
    simp [State.condition, hpass.powered, hp, hmode e, hnode]
  have hpath : t0.pathOf e os = .bypass := by
    have hp0 : t0.path e = .bypass := by rw [State.path, hcond]
    rw [State.pathOf, hp0]
    rfl
  have hen : t0.enrolling = false := by
    have hap : t0.form.applicant = none := by rw [hpass.form]; exact ha
    unfold State.enrolling
    rw [hap]
  have hon : t0.passOn e .bypass (s.now + k) os.length (relayCopy os) = x := by
    unfold State.passOn
    dsimp only
    rw [if_neg (by simp [hmode, hen])]
  have hxi : x.interior = u.interior := (t0.mapEnd_interior _ _).trans (s.recordCame_interior k e os)
  have hxn : x.form.node = .detached := (t0.mapEnd_form _ _ ▸ hnode :)
  have hxu : x.endUnit e.other = { t0.endUnit e.other with coming := some (s.now + k + 4, copy) } :=
    t0.endUnit_mapEnd e.other _
  have hxe : ∀ e', (x.endUnit e').mode = (t0.endUnit e').mode ∧ (x.endUnit e').segregated = (t0.endUnit e').segregated := by
    intro e'
    cases e <;> cases e' <;> exact ⟨rfl, rfl⟩
  have hconds : ∀ e', t0.condition e' = x.condition e' := fun e' =>
    State.condition_congr (t0.mapEnd_powered _ _).symm (hnode.trans hxn.symm) e' (hxe e').1.symm (hxe e').2.symm
  have hxl : x.link = s.link := (t0.mapEnd_link _ _).trans (s.recordCame_link k e os)
  have hxr : AtRest x := ⟨(t0.mapEnd_outbox _ _).trans ((s.recordCame_outbox k e os).trans hrest.1), by
    rw [hxl]; exact hrest.2⟩
  have done : ∀ (c : Instr) (kind : Octet) (hand : Path → State → State), goodRecordOf kind os = true →
      exec c s = receive k e kind os s hand → hand .bypass x = x → through c := by
    intro c kind hand hg hc hh
    have hx : exec c s = finish t0 x := by rw [hc, receive_good hg hp, hpath, hon, hh]
    have hcoming : ((State.settle t0 x).endUnit e.other).coming = some (s.now + k + 4, copy) := by
      rw [settle_coming hconds, hxu]
    refine ⟨_, hx, ?_, ?_, ?_, ?_, ?_, ?_, ?_, hcoming, fun hs => ?_⟩
    · rw [settle_form]; exact (congrArg State.form hxi :)
    · rw [settle_timer]; exact (congrArg State.timer hxi :)
    · rw [settle_pet]; exact (congrArg State.pet hxi :)
    · rw [settle_chan]; exact (congrArg State.chan hxi :).trans (s.advance_chan k)
    · rw [settle_planner]; exact (congrArg State.planner hxi :).trans (s.advance_planner k)
    · rw [settle_link_atRest hxr, hxl]
    · rw [settle_store]; exact (congrArg State.store hxi :).trans (s.advance_store k)
    · have hpt : (State.settle t0 x).powered = true := by
        rw [settle_powered]
        exact (t0.mapEnd_powered _ _).trans (hpass.powered.trans hp)
      have hnow : (State.settle t0 x).now = s.now + k := by
        rw [settle_now]
        exact (congrArg State.now hxi :).trans (s.advance_now k)
      have hsend : ((State.settle t0 x).endUnit e.other).sending = none := by
        rw [settle_sending hconds, hxu]
        show (t0.endUnit e.other).sending = none
        have hh : t0.endUnit e.other = u.endUnit e.other := by
          show ((s.advance k).hear e os.length).endUnit e.other = _
          unfold State.hear
          split
          · rfl
          · exact State.endUnit_mapEnd_other _ _ _
        rw [hh]
        exact hs
      obtain ⟨hcs, -, hcc⟩ := ((State.settle t0 x).endUnit e.other).countTicks_records 4
      rw [State.advance_endUnit hpt, hnow]
      exact EndUnit.sentBy_ready (r := copy) (hcs.trans hsend) (hcc.trans hcoming) (sealRecord_ne_nil _)
  refine ⟨fun hg => ?_, fun hg => ?_, fun hg => ?_, fun hg => ?_⟩
  · refine done _ kindMark (fun p s => s.handMark e os p) hg (exec_markReceived s k e os) ?_
    unfold State.handMark
    dsimp only
    cases decodeMark os with
    | none => exact if_pos hxn
    | some m =>
      dsimp only
      rw [hxn]
  · refine done _ kindRoll (fun p s => s.handRoll e os p) hg (exec_rollRecordReceived s k e os) ?_
    unfold State.handRoll
    dsimp only
    rw [State.rollTaken_detached hxn, if_neg Bool.false_ne_true]
  · refine done _ kindPetition (fun p s => s.handPetition e os p) hg (exec_petitionRecordReceived s k e os) ?_
    unfold State.handPetition
    dsimp only
    rw [if_neg (by rw [hxn]; decide)]
  · refine done _ kindChannel (fun p s => s.handChannel e os p) hg (exec_channelRecordReceived s k e os) ?_
    unfold State.handChannel
    dsimp only
    rw [if_neg (by rw [hxn]; decide)]

/-! ## Bad records -/

/-- Settles O39. -/
theorem badRecordSetsLineErrors : Obligations.BadRecordSetsLineErrors := by
  intro s e os k hp hrest hb hm u fl
  let t0 := s.recordCame k e os
  obtain ⟨v, w, hcut⟩ := t0.passCut_withEnds e os
  let x : State := (t0.withEnds v w).lineError e
  have hmode : (t0.endUnit e).mode = .line := (congrArg EndUnit.mode (s.recordCame_detector k e os e) :).trans hm
  have hx : exec (.badRecordReceived k e os) s = finish t0 x := by
    rw [exec_badRecordReceived, execBadRecordReceived, if_neg (by rw [hb]; decide), if_neg (by rw [hp]; decide)]
    show (if (t0.endUnit e).mode = .isolated then finish t0 t0 else finish t0 ((t0.passCut e os).lineError e)) = _
    rw [if_neg (by rw [hmode]; decide), hcut]
  have hti := s.recordCame_interior k e os
  have hxl : x.link = { s.link with flags := { fl with
      lineErrors1 := fl.lineErrors1 || decide (e = .e1), lineErrors2 := fl.lineErrors2 || decide (e = .e2) } } := by
    have hl : (t0.withEnds v w).link = s.link := s.recordCame_link k e os
    show ({ (t0.withEnds v w).link with flags := _ } : CarLink) = _
    cases e <;> simp [hl, fl]
  have hxr : AtRest x := ⟨(s.recordCame_outbox k e os).trans hrest.1, by rw [hxl]; exact hrest.2⟩
  refine ⟨_, hx, ?_, ?_, ?_, ?_, ?_, ?_, (settle_link_atRest hxr).trans hxl⟩
  · rw [settle_form]; exact (congrArg State.form hti :)
  · rw [settle_timer]; exact (congrArg State.timer hti :)
  · rw [settle_pet]; exact (congrArg State.pet hti :)
  · rw [settle_chan]; exact (congrArg State.chan hti :).trans (s.advance_chan k)
  · rw [settle_planner]; exact (congrArg State.planner hti :).trans (s.advance_planner k)
  · rw [settle_store]; exact (congrArg State.store hti :).trans (s.advance_store k)

/-! ## Foreign silence -/

theorem State.advance_attempts (s : State) (k : Nat) (e : EndId) :
    ((s.advance k).endUnit e).attempts = (s.endUnit e).attempts := (congrArg EndUnit.attempts (s.advance_detector k e) :)

theorem State.detectable_mapEnd {s : State} {e : EndId} {g : EndUnit → EndUnit} (hg : ∀ u : EndUnit, (g u).mode = u.mode)
    (e' : EndId) : (s.mapEnd e g).detectable e' = s.detectable e' := by
  have hm : ((s.mapEnd e g).endUnit e').mode = (s.endUnit e').mode := by
    cases e <;> cases e' <;> first | rfl | exact hg _
  unfold State.detectable State.outermost State.outer
  rw [s.mapEnd_form e g, hm]

/-- Settles O40. -/
theorem foreignTimeouts : Obligations.ForeignTimeouts := by
  refine ⟨fun s e r hp hrest hd hg ht hs => ?_, fun s e r hp hn hd hg hph hw hs => ?_⟩
  · let t0 := s.advanceTo (r.arrival + 2 * r.period)
    let x := t0.mapEnd e EndUnit.toQuiet
    have hx : exec (.foreignMarkTimeout e) s = finish t0 x := by
      have hdl : (s.endUnit e).foreignDeadline = some (r.arrival + 2 * r.period) := by rw [EndUnit.foreignDeadline, hs]; rfl
      rw [exec_foreignMarkTimeout, execForeignMarkTimeout, whenPowered_of_powered hp, hdl]
      exact if_pos (by simp [hd, hg, ht])
    have hu : x.endUnit e = (t0.endUnit e).toQuiet := t0.endUnit_mapEnd e _
    have hq : (x.endUnit e).toQuiet = x.endUnit e := by rw [hu]; rfl
    have hxl : x.link = s.link := (t0.mapEnd_link _ _).trans (s.advance_link _)
    have hxr : AtRest x := ⟨(t0.mapEnd_outbox _ _).trans ((s.advance_outbox _).trans hrest.1), by
      rw [hxl]; exact hrest.2⟩
    have field : ∀ {α : Type} (p : EndUnit → α), (∀ u : EndUnit, p u.receiver = p u) → (∀ u : EndUnit, p u.forgetJoin = p u) →
        p ((State.settle t0 x).endUnit e) = p (t0.endUnit e).toQuiet := by
      intro α p hr hj
      rw [settle_quiet_end hq p hr hj, hu]
    refine ⟨_, hx, field EndUnit.phase (fun _ => rfl) fun _ => rfl, field EndUnit.sighting (fun _ => rfl) fun _ => rfl,
      field EndUnit.foreign (fun _ => rfl) fun _ => rfl, field EndUnit.adjacent (fun _ => rfl) fun _ => rfl,
      field EndUnit.watch (fun _ => rfl) fun _ => rfl, ?_, ?_, ?_⟩
    · rw [settle_attempts, hu]
      exact s.advance_attempts _ e
    · rw [settle_pet]
      exact ((Passed.advance s _).mapEnd e _).queue
    · rw [settle_link_atRest hxr, hxl]
  · let t0 := s.advanceTo (r.arrival + 2 * r.period)
    let y := t0.mapEnd e fun u => { u with watch := .none }
    let c := (t0.endUnit e).foreignCab
    have hdet := s.advance_detector (r.arrival + 2 * r.period - s.now) e
    have hc : c = (s.endUnit e).foreignCab := (congrArg EndUnit.foreignCab hdet :)
    have hy : Passed s y := (Passed.advance s _).mapEnd e _
    let x : State := { y with pet := { y.pet with queue := putWant (.foreignQuiet e c.1 c.2) y.pet.queue } }
    have hx : exec (.foreignQuietTimeout e) s = finish t0 x := by
      have hdl : (s.endUnit e).foreignDeadline = some (r.arrival + 2 * r.period) := by rw [EndUnit.foreignDeadline, hs]; rfl
      rw [exec_foreignQuietTimeout, execForeignQuietTimeout, whenPowered_of_powered hp, hdl]
      refine (if_pos (by simp [hd, hg, hph, hw])).trans ?_
      exact congrArg (finish t0) (State.queueWant_of_not_lead (s := y) _ (by rw [hy.node, hn]; decide))
    have hu : x.endUnit e = { t0.endUnit e with watch := .none } := by
      cases e <;> rfl
    have hkeep : t0.detectable e = true → x.detectable e = true := by
      intro h
      rw [← State.detectable_mapEnd (s := t0) (e := e) (g := fun u => { u with watch := .none }) (fun _ => rfl)] at h
      cases e <;> exact h
    refine ⟨_, hx, ?_, ?_, ?_⟩
    · rw [settle_detecting hkeep EndUnit.watch (fun _ => rfl) fun _ => rfl, hu]
    · rw [settle_detecting hkeep EndUnit.phase (fun _ => rfl) fun _ => rfl, hu]
      exact (congrArg EndUnit.phase hdet :).trans hph
    · rw [settle_pet]
      show putWant (.foreignQuiet e c.1 c.2) y.pet.queue = _
      rw [hy.queue, hc]

/-! ## A split that times out -/

/-- A disarmed split leaves STEADY, no record, and the answer to its requester (R133). -/
theorem State.disarm_told {s : State} (sp : SplitRecord) (why : Reason) (hr : RoomFor s sp.requester) :
    s.disarm sp why = s.steadyNext.endSplit.pushAnswer (answerTo sp.requester .split none .disarmed (some why)) :=
  State.answer_push (s := s.steadyNext.endSplit) (by
    rw [answerTo_isOwn]; exact beq_eq_false_iff_ne.mpr hr.1) hr.2

/-- Settles O53. -/
theorem armedTimeoutDisarms : Obligations.ArmedTimeoutDisarms := by
  intro s sp hp hn hsp hst hr
  let t0 := s.advance (s.settings.armedTimeout * Config.ticksPerSecond - sp.armedTime)
  have ht : Passed s t0 := Passed.advance s _
  have hans : t0.pet.answers = s.pet.answers := by rw [ht.pet]
  have hx : exec .armedTimeout s = finish t0 (t0.disarm sp .timeout) := by
    rw [exec_armedTimeout, execArmedTimeout, whenPowered_of_powered hp, hsp]
    exact if_pos (by simp [hn, hst])
  rw [State.disarm_told sp .timeout ⟨by rw [ht.ownTag]; exact hr.1, by rw [hans]; exact hr.2⟩] at hx
  refine ⟨_, hx, ?_, ?_, ?_, ?_, ?_⟩
  · rw [settle_pet]; rfl
  · rw [settle_pet]; rfl
  · rw [settle_form]; rfl
  · rw [settle_form]; exact ht.current
  · rw [settle_pet]
    show t0.pet.answers ++ _ = _
    rw [hans]

end Sys2Proof.Machine
end

section
/-! PROOFS. The cycle starts of a leader, piece by piece: the counter's return, an installation, the mark
(R26, R29, R61, R98, R150). -/

namespace Sys2Proof.Machine

open Sys2Proof

/-! ## The counter's return -/

/-- The cycle timer at a generated start (R26, R29). -/
def State.openedTimer (s : State) : CycleTimer :=
  { s.timer.nextCycle with
    lock := .generating, counter := 0, period := some s.settings.period, kind := .marked, nextSlot := 0,
    reference := some s.now, refHop := 0, acceptEnd := none, early := 0, earlyHold := false, earlySeen := false,
    missed := 0 }

/-- A cycle opened with the silence counts it leaves. -/
def State.opened (s : State) (sil : List Silence) (due : List Tag) : State :=
  { s with
    timer := s.openedTimer, chan := s.turnCycle.chan, pet := { s.pet with silence := sil, silenceDue := due } }

/-- A generated start changes the timer, the channel unit and the silence counts. -/
theorem State.openCycle_eq (s : State) : ∃ sil due, s.openCycle = s.opened sil due := by
  unfold State.openCycle
  dsimp only
  split
  · exact ⟨_, _, rfl⟩
  · exact ⟨_, _, rfl⟩

/-! ## Notices that only join the outbox -/

theorem State.setImage_only (s : State) (img : List ImageCell) : ∃ o, s.setImage img =
    ({ s with chan := { s.chan with image := some img } } : State).withOutbox (s.outbox ++ o)
      ∧ (∀ c ∈ o, c.1 = rankChange) ∧ (s.chan.watch = [] → o = []) := by
  let x : State := { s with chan := { s.chan with image := some img } }
  obtain ⟨o, h, ho⟩ := x.noticeChanges_only s.cells
  refine ⟨o, h, ho, fun hw => ?_⟩
  have hu : x.noticeChanges s.cells = x := State.noticeChanges_unwatched (s := x) hw s.cells
  have hlen := congrArg (fun y : State => y.outbox.length) (h.symm.trans hu)
  have : (x.outbox ++ o).length = x.outbox.length := hlen
  rw [List.length_append] at this
  exact List.length_eq_zero_iff.mp (by omega)

theorem State.discardWants_only (s : State) : ∃ o, s.discardWants =
    ({ s with pet := { s.pet with queue := [] } } : State).withOutbox (s.outbox ++ o) := by
  unfold State.discardWants
  have fold : ∀ (ws : List Want) (x : State) (f : State → Want → State),
      (∀ y w, ∃ o, f y w = y.withOutbox (y.outbox ++ o)) → ∃ o, ws.foldl f x = x.withOutbox (x.outbox ++ o) := by
    intro ws
    induction ws with
    | nil => exact fun x f _ => ⟨[], by rw [List.append_nil]; rfl⟩
    | cons w ws ih =>
      intro x f hf
      obtain ⟨o, h⟩ := hf x w
      obtain ⟨o', h'⟩ := ih (f x w) f hf
      refine ⟨o ++ o', ?_⟩
      rw [List.foldl_cons, h', h]
      simp only [State.withOutbox, List.append_assoc]
  refine fold _ _ _ fun y w => ?_
  cases w
  case split => exact ⟨[_], rfl⟩
  case splitCancel => exact ⟨[_], rfl⟩
  case cabClaim => exact ⟨[_], rfl⟩
  case cabRelease => exact ⟨[_], rfl⟩
  case heading => exact ⟨[_], rfl⟩
  all_goals exact ⟨[], by rw [List.append_nil]; rfl⟩

/-! ## Installation (R61) -/

/-- An installation of a table that holds the own tag, with the planner and the outbox it leaves. -/
def State.installed (s : State) (t : Table) (p : Planner) (o : List (Nat × NoticeBody)) : State :=
  { s with
    form := s.form.take s.ownTag t
    planner := p
    pet := if s.form.node = .lead then s.pet.follow s.ownTag t.entries else s.pet
    chan := { s.chan with image := some (rekeyImage s.cells t.entries) }
    outbox := s.outbox ++ o }

/-- An installation makes CHANGE notices and the FORMATION notice, and with nothing watched the latter only (R61). -/
theorem State.installOwn_eq (s : State) (t : Table) : ∃ p o, s.installOwn t = s.installed t p o
    ∧ p.inForce = some (makePlan t s.planPeriod) ∧ p.stale = false
    ∧ (s.chan.watch = [] → ∃ b, o = [(rankFormation, b)]) := by
  let s1 : State := { s with form := s.form.take s.ownTag t }
  let s2 : State := { s1 with
    planner := { s1.planner with inForce := some (makePlan t s1.planPeriod), stale := false }
    pet := if s1.form.node = .lead then s1.pet.follow s1.ownTag t.entries else s1.pet }
  let s3 := s2.withShadows s.form
  obtain ⟨o, h, -, ho⟩ := s3.setImage_only (rekeyImage s3.cells t.entries)
  have hi : s.installOwn t = ((s3.setImage (rekeyImage s3.cells t.entries)).formationNotice t (s2.leaderTag.getD 0)) := rfl
  have note : ∀ (x : State) (l : Tag), ∃ b, x.formationNotice t l = x.withOutbox (x.outbox ++ [(rankFormation, b)]) :=
    fun _ _ => ⟨_, rfl⟩
  obtain ⟨b, hb⟩ := note (s3.setImage (rekeyImage s3.cells t.entries)) (s2.leaderTag.getD 0)
  rw [hi, hb, h]
  refine ⟨s3.planner, o ++ [(rankFormation, b)], ?_, rfl, rfl, fun hw => ⟨b, by rw [ho hw]; rfl⟩⟩
  unfold State.installed State.withOutbox
  rw [← List.append_assoc]
  rfl

theorem State.install_of_holds {s : State} {t : Table} (h : holdsTag t.entries s.ownTag = true) :
    s.install t = s.installOwn t := if_pos h

/-! ## The mark (R29, R98) -/

/-- The formation unit with a latched mark (R53, R29). -/
def State.markedForm (s : State) (switch : Bool) : FormationUnit :=
  let m := s.markFields
  let changed := switch || s.timer.latched.map MarkFields.procedure != some m.procedure
  let armed := m.procedure == .arming || m.procedure == .armed
  { (if armed then s.form else s.form.dropArmed) with
    rollPointer := if changed then some { table := 0, index := 1 } else s.form.rollPointer }

/-- What a latched mark leaves of the formation unit: all but the armed tables and the roll pointer. -/
theorem State.markedForm_field {α : Type} (g : FormationUnit → α) (h1 : ∀ f : FormationUnit, g f.dropArmed = g f)
    (h2 : ∀ (f : FormationUnit) r, g { f with rollPointer := r } = g f) (s : State) (switch : Bool) :
    g (s.markedForm switch) = g s.form := by
  unfold State.markedForm
  dsimp only
  rw [h2]
  split
  · rfl
  · exact h1 _

/-- A state with its mark latched, with the end units, planner, own-cab mark and outbox that this leaves. -/
def State.withMark (s : State) (switch : Bool) (u v : EndUnit) (p : Planner) (b : Bool) (o : List (Nat × NoticeBody)) :
    State :=
  { s with
    timer := { s.timer with latched := some s.markFields }
    form := s.markedForm switch
    planner := p, e1 := u, e2 := v
    pet := { s.pet with ownCab := b, releasedSince := false }
    outbox := s.outbox ++ o }

/-- The mark latched, handed to the end units and compared, before channels are taken. -/
def State.handedMark (s : State) (switch : Bool) : State :=
  let s1 : State := { s with timer := { s.timer with latched := some s.markFields }, form := s.markedForm switch }
  ((s1.withShadows s.form).sendOwn (markRecord s.markFields)).compareCab

theorem State.handedMark_eq (s : State) (switch : Bool) : ∃ u v p b o, s.handedMark switch = s.withMark switch u v p b o
    ∧ p.inForce = s.planner.inForce ∧ p.stale = s.planner.stale ∧ o.length ≤ 1 ∧ ∀ c ∈ o, c.1 = rankCab := by
  let s1 : State := { s with timer := { s.timer with latched := some s.markFields }, form := s.markedForm switch }
  obtain ⟨u, v, h⟩ := (s1.withShadows s.form).sendOwn_withEnds (markRecord s.markFields)
  have hc : ∀ x : State, ∃ b o, x.compareCab =
      ({ x with pet := { x.pet with ownCab := b, releasedSince := false } } : State).withOutbox (x.outbox ++ o)
        ∧ o.length ≤ 1 ∧ ∀ c ∈ o, c.1 = rankCab := by
    intro x
    have made : ∀ (lost : Bool) (y : State), ∃ o, (if lost then y.notify rankCab (.cab .lost) else y) =
        y.withOutbox (y.outbox ++ o) ∧ o.length ≤ 1 ∧ ∀ c ∈ o, c.1 = rankCab := by
      intro lost y
      cases lost
      · exact ⟨[], by rw [List.append_nil]; rfl, Nat.zero_le 1, fun c hc => by cases hc⟩
      · exact ⟨[(rankCab, .cab .lost)], rfl, Nat.le_refl 1, fun c hc => by rw [List.mem_singleton.mp hc]⟩
    unfold State.compareCab
    obtain ⟨o, h, hl, ho⟩ := made _ _
    exact ⟨_, o, h, hl, ho⟩
  obtain ⟨b, o, hb, hl, ho⟩ := hc ((s1.withShadows s.form).withEnds u v)
  refine ⟨u, v, (s1.withShadows s.form).planner, b, o, ?_, rfl, rfl, hl, ho⟩
  show ((s1.withShadows s.form).sendOwn (markRecord s.markFields)).compareCab = _
  rw [h, hb]
  rfl

theorem State.latchMark_eq (s : State) (switch : Bool) : s.latchMark switch =
    (let x := (s.handedMark switch).takeChannels.beginDeferred; if x.timer.index = 0 then x.offerWants else x) := rfl

/-! ## Channels taken (R150) -/

theorem takeChannel_folds (chs : List Nat) (x : State) :
    ∃ c, chs.foldl State.takeChannel x = { x with chan := c } ∧ c.watch = x.chan.watch := by
  induction chs generalizing x with
  | nil => exact ⟨_, rfl, rfl⟩
  | cons ch chs ih =>
    obtain ⟨c, h, hw⟩ := ih (x.takeChannel ch)
    exact ⟨c, h, hw⟩

/-- Channels taken change the channel unit and make CHANGE notices. -/
theorem State.takeChannels_only (s : State) : ∃ c o, s.takeChannels = ({ s with chan := c } : State).withOutbox (s.outbox ++ o)
    ∧ c.watch = s.chan.watch ∧ (∀ c ∈ o, c.1 = rankChange) ∧ (s.chan.watch = [] → o = []) := by
  have keep : ∃ c o, s = ({ s with chan := c } : State).withOutbox (s.outbox ++ o)
      ∧ c.watch = s.chan.watch ∧ (∀ c ∈ o, c.1 = rankChange) ∧ (s.chan.watch = [] → o = []) :=
    ⟨s.chan, [], by rw [List.append_nil]; rfl, rfl, fun c hc => (List.not_mem_nil hc).elim, fun _ => rfl⟩
  unfold State.takeChannels
  split
  · exact keep
  · next p _ =>
    split
    · dsimp only
      obtain ⟨c, h, hw⟩ := takeChannel_folds ((p.channelsAt s.ownPosition s.timer.index).filter fun ch =>
        decide (ch < s.settings.channels.length)) s
      rw [h]
      obtain ⟨o, ho, hr⟩ := ({ s with chan := c } : State).noticeChanges_only s.cells
      refine ⟨c, o, ho, hw, hr, fun hn => ?_⟩
      have hu := State.noticeChanges_unwatched (s := { s with chan := c }) (hw.trans hn) s.cells
      have hlen := congrArg (fun y : State => y.outbox.length) (ho.symm.trans hu)
      have hl : (s.outbox ++ o).length = s.outbox.length := hlen
      rw [List.length_append] at hl
      exact List.length_eq_zero_iff.mp (by omega)
    · exact keep

/-! ## The mark of a leader with nothing of its own to begin -/

theorem State.beginDeferred_idle {s : State} (h : s.pet.deferred = false ∨ s.pet.inProgress = none) :
    s.beginDeferred = { s with pet := { s.pet with deferred := false } } := by
  by_cases hd : s.pet.deferred = true
  · unfold State.beginDeferred
    rw [if_pos hd]
    dsimp only
    rw [h.resolve_left (by rw [hd]; decide)]
  · have hf : s.pet.deferred = false := by simpa using hd
    rw [State.beginDeferred_of_not hf]
    show _ = ({ s with pet := { s.pet with deferred := false } } : State)
    rw [← hf]

/-- With no want queued and nothing to re-form, a mark is latched and channels are taken, and no more. -/
theorem State.latchMark_idle {s : State} (switch : Bool) (hq : s.pet.queue = [])
    (hd : s.pet.deferred = false ∨ s.pet.inProgress = none) : s.latchMark switch =
      { (s.handedMark switch).takeChannels with
        pet := { (s.handedMark switch).takeChannels.pet with deferred := false } } := by
  obtain ⟨u, v, p, b, o, h, -⟩ := s.handedMark_eq switch
  obtain ⟨c, o', h', -⟩ := (s.handedMark switch).takeChannels_only
  have hp : (s.handedMark switch).takeChannels.pet = { s.pet with ownCab := b, releasedSince := false } := by
    rw [h', h]; rfl
  rw [State.latchMark_eq, State.beginDeferred_idle (by rw [hp]; exact hd)]
  dsimp only
  split
  · refine State.offerWants_of_nil ?_
    show (s.handedMark switch).takeChannels.pet.queue = []
    rw [hp]
    exact hq
  · rfl

/-- What is left of a mark latched so, but for the channel unit (R29, R98). -/
structure Marked (s t : State) (switch : Bool) : Prop where
  timer : t.timer = { s.timer with latched := some s.markFields }
  form : t.form = s.markedForm switch
  inForce : t.planner.inForce = s.planner.inForce
  pet : ∃ b, t.pet = { s.pet with ownCab := b, releasedSince := false, deferred := false }
  now : t.now = s.now
  link : t.link = s.link
  store : t.store = s.store
  powered : t.powered = s.powered
  watch : t.chan.watch = s.chan.watch
  outbox : s.chan.watch = [] → ∃ o, t.outbox = s.outbox ++ o ∧ o.length ≤ 1

theorem State.latchMark_marked {s : State} (switch : Bool) (hq : s.pet.queue = [])
    (hd : s.pet.deferred = false ∨ s.pet.inProgress = none) : Marked s (s.latchMark switch) switch := by
  obtain ⟨u, v, p, b, o, h, hp, -, hl, -⟩ := s.handedMark_eq switch
  obtain ⟨c, o', h', hw, -, ho⟩ := (s.handedMark switch).takeChannels_only
  rw [State.latchMark_idle switch hq hd, h']
  rw [h] at hw ho ⊢
  refine ⟨rfl, rfl, hp, ⟨b, rfl⟩, rfl, rfl, rfl, rfl, hw, fun hn => ⟨o, ?_, hl⟩⟩
  show (s.outbox ++ o) ++ o' = _
  rw [ho hn, List.append_nil]

/-! ## The mark at any leader's desk -/

theorem State.offerWants_station (s : State) : s.offerWants.station = s.station := station_of_desk s.offerWants_desk

/-- Beginning a deferred item and offering wants leave the station as channels were taken. -/
theorem State.latchMark_station (s : State) (switch : Bool) :
    (s.latchMark switch).station = (s.handedMark switch).takeChannels.station := by
  rw [State.latchMark_eq]
  dsimp only
  split
  · rw [State.offerWants_station, State.beginDeferred_station]
  · rw [State.beginDeferred_station]

end Sys2Proof.Machine
end

section
/-! PROOFS. What the cycle starts of a leader set going: leading alone, arming, the split's switch, the join's deadlines,
the end of a yield, a new leader's first mark (R46, R83, R107, R109, R110, R132, R136, R138). -/

namespace Sys2Proof.Machine

open Sys2Proof

/-! ## The instant of a start -/

theorem State.advanceTo_now {s : State} {i : Nat} (h : s.now ≤ i) : (s.advanceTo i).now = i := by
  rw [State.advanceTo, State.advance_now]
  omega

theorem State.counterReturn_now (s : State) : (s.advanceTo s.counterReturn).now = s.counterReturn :=
  State.advanceTo_now (Nat.le_add_right _ _)

theorem node_of_leadStart {s : State} {row : LeadStart} (h : s.leadStart = some row) : s.form.node = .lead := by
  unfold State.leadStart at h
  split at h
  · cases h
  · next hn => exact Decidable.not_not.mp hn

/-- A start at a generating leader's counter return finds no led table waiting. -/
theorem led_of_leadStart {s : State} {row : LeadStart} (h : s.leadStart = some row) (hr : row ≠ .firstMark) :
    s.form.led = none := by
  unfold State.leadStart at h
  rw [if_neg (by rw [node_of_leadStart h]; exact fun hc => hc rfl)] at h
  split at h
  · split at h
    · cases h
    · cases h; exact absurd rfl hr
  · next hl => simpa using hl

theorem leaderRow_of {s : State} {row : LeadStart} (hp : s.powered = true) (h : s.leadStart = some row)
    (f : State → State) : leaderRow s row f = finish (s.advanceTo s.counterReturn) (f (s.advanceTo s.counterReturn)) :=
  (whenPowered_of_powered hp _).trans (if_pos h)

theorem State.advanceTo_passed (s : State) (i : Nat) : Passed s (s.advanceTo i) := Passed.advance s _

/-- Time moves the armed time of a split record only. -/
theorem State.advance_split {s : State} {sp : SplitRecord} (h : s.pet.split = some sp) (k : Nat) :
    ∃ n, (s.advance k).pet.split = some { sp with armedTime := n } := by
  unfold State.advance
  split
  · dsimp only
    rw [h]
    dsimp only
    split
    · exact ⟨_, rfl⟩
    · exact ⟨_, h⟩
  · exact ⟨_, h⟩

/-! ## Leading alone (R46) -/

/-- What an installation gives a leader with no want queued and nothing to re-form (R61). -/
theorem State.installed_idle {s : State} (t : Table) (p : Planner) (o : List (Nat × NoticeBody)) :
    (s.installed t p o).pet.queue = s.pet.queue ∧ (s.installed t p o).pet.deferred = s.pet.deferred
      ∧ (s.installed t p o).pet.inProgress = s.pet.inProgress := by
  unfold State.installed
  dsimp only
  split <;> exact ⟨rfl, rfl, rfl⟩

/-- Settles O46. -/
theorem listenTimeoutLeadsAlone : Obligations.ListenTimeoutLeadsAlone := by
  intro s sn hp hn hsn hpet
  let k := Config.listenTicks - s.form.listenTimer
  let t0 := s.advance k
  have h0 : Passed s t0 := Passed.advance s k
  have hq : t0.pet.queue = [] := by rw [h0.queue, hpet]; rfl
  let s1 : State := { t0 with
    form := { t0.form with node := .lead, listenTimer := 0, listenCandidate := none,
                           procedure := some .steady, countdown := 0, countdownFresh := false, otherTag := none }
    pet := t0.pet.leaveLead
    timer := { t0.timer with
      lock := .generating, counter := 0, period := some t0.settings.period, index := 0, round := 0,
      kind := .marked, nextSlot := 0, reference := some t0.now, refHop := 0, acceptEnd := none, followed := none,
      early := 0, earlyHold := false, earlySeen := false, missed := 0 } }
  let one : Table := { epoch := 0, entries := [t0.soleEntry] }
  obtain ⟨p, o, hi, -⟩ := s1.installOwn_eq one
  have hx : exec .listenTimeout s = finish t0 ((s1.installed one p o).latchMark true) := by
    rw [exec_listenTimeout, execListenTimeout, whenPowered_of_powered hp, ← hi]
    exact if_pos hn
  have hidle := s1.installed_idle one p o
  have hm := State.latchMark_marked (s := s1.installed one p o) true (hidle.1.trans hq) (.inl hidle.2.1)
  have hsnap : t0.store.snapshot = some sn := (congrArg Store.snapshot h0.store).trans hsn
  have hsole : t0.soleEntry = sn.soleEntry := by unfold State.soleEntry; rw [hsnap]
  have hset : t0.settings = sn.service := by unfold State.settings; rw [hsnap]
  have htag : (s1.installed one p o).ownTag = sn.identity.tag := by
    show t0.ownTag = _
    unfold State.ownTag
    rw [hsnap]
  refine ⟨_, hx, ?_, ?_, ?_, ?_, ?_, ?_, ?_, ?_, ?_, ?_⟩
  · rw [settle_form, hm.form]; rfl
  · rw [settle_form, hm.form, ← hsole]; rfl
  · rw [settle_form, hm.form]; rfl
  · rw [settle_timer, hm.timer]; rfl
  · rw [settle_timer, hm.timer]; rfl
  · rw [settle_timer, hm.timer]; rfl
  · rw [settle_timer, hm.timer]; rfl
  · rw [settle_timer, hm.timer, ← hset]; rfl
  · rw [settle_timer, hm.timer, ← htag]; rfl
  · rw [settle_now, hm.now]
    exact s.advance_now k

/-! ## Arming and the split's switch (R132, R136) -/

/-- A state with its answers delivered or queued. -/
def State.withAnswers (s : State) (q : List Want) (as : List Answer) (o : List (Nat × NoticeBody)) : State :=
  ({ s with pet := { s.pet with queue := q, answers := as } } : State).withOutbox o

/-- An answer on a BREAK touches the queue of wants, the answers and the outbox. -/
theorem State.answer_brk_eq (s : State) (t : Tag) (e : EndId) : ∃ q as o,
    s.answer (answerTo t .brk (some e) .done none) = s.withAnswers q as o ∧ (s.pet.queue = [] → q = []) := by
  let a := answerTo t .brk (some e) .done none
  unfold State.answer
  split
  · unfold State.deliver
    rw [if_neg nofun]
    exact ⟨_, s.pet.answers, _, rfl, fun h => by rw [h]; rfl⟩
  · exact ⟨s.pet.queue, (if Config.answerSize ≤ s.pet.answers.length then s.pet.answers.tail else s.pet.answers) ++ [a],
      s.outbox, rfl, id⟩

/-- ARMED_REACHED latches the mark of an armed split (R132). -/
theorem armedReached_told {s : State} {sp : SplitRecord} (hp : s.powered = true) (hl : s.leadStart = some .armedReached)
    (hs : s.pet.split = some sp) (hd : s.pet.deferred = false) (hq : s.pet.queue = []) (hr : RoomFor s sp.requester) :
    ∃ t, exec .armedReached s = .next t ∧ t.form.procedure = some .armed
      ∧ t.pet.split = some { sp with stage := .armed, armedTime := 0 }
      ∧ t.pet.answers = s.pet.answers ++ [answerTo sp.requester .split none .armed none]
      ∧ t.form.armedA = s.form.armedA ∧ t.form.armedB = s.form.armedB := by
  let t0 := s.advanceTo s.counterReturn
  have h0 : Passed s t0 := s.advanceTo_passed _
  obtain ⟨n, hs0⟩ := State.advance_split hs (s.counterReturn - s.now)
  obtain ⟨sil, due, ho⟩ := t0.openCycle_eq
  let s1 := t0.opened sil due
  let y : State := ({ s1 with
    form := { s1.form with procedure := some .armed, countdown := 0, countdownFresh := false }
    pet := { s1.pet with split := some { sp with stage := .armed, armedTime := 0 } } } : State).pushAnswer
      (answerTo sp.requester .split none .armed none)
  have hans : t0.pet.answers = s.pet.answers := by rw [h0.pet]
  have hx : exec .armedReached s = finish t0 (y.latchMark false) := by
    rw [exec_armedReached, execArmedReached, leaderRow_of hp hl]
    refine congrArg (finish t0) ?_
    show t0.reachArmed = _
    unfold State.reachArmed
    dsimp only
    rw [ho, show t0.pet.split = _ from hs0]
    refine congrArg (State.latchMark · false) ((State.answer_push ?_ ?_).trans ?_)
    · rw [answerTo_isOwn]
      exact beq_eq_false_iff_ne.mpr (by show sp.requester ≠ t0.ownTag; rw [h0.ownTag]; exact hr.1)
    · show t0.pet.answers.length < 16
      rw [hans]
      exact hr.2
    · show State.pushAnswer { s1 with form := _, pet := { s1.pet with split := t0.pet.split.map _ } } _ = _
      rw [show t0.pet.split = _ from hs0]
      rfl
  have hm := State.latchMark_marked (s := y) false (h0.queue.trans hq)
    (.inl (show t0.pet.deferred = false by rw [h0.pet]; exact hd))
  obtain ⟨b, hpet⟩ := hm.pet
  refine ⟨_, hx, ?_, ?_, ?_, ?_, ?_⟩
  · rw [settle_form, hm.form]; rfl
  · rw [settle_pet, hpet]; rfl
  · rw [settle_pet, hpet, ← hans]; rfl
  · rw [settle_form, hm.form]
    show t0.form.armedA = _
    rw [h0.form]
  · rw [settle_form, hm.form]
    show t0.form.armedB = _
    rw [h0.form]

theorem State.planPeriod_of_lead {s : State} (h : s.form.node = .lead) : s.planPeriod = s.settings.period := if_pos h

/-- The split's switch, with what the installation and an answer to a waiting BREAK leave (R136). -/
theorem State.switchSplit_eq {s : State} {a : Table} {sp : SplitRecord} (ha : s.form.armedA = some a)
    (hs : s.pet.split = some sp) (hh : holdsTag a.entries s.ownTag = true) : ∃ sil due p o q as o',
      s.switchSplit = (((((s.opened sil due).steady.installed a p o).endSplit).withAnswers q as o').latchMark true)
      ∧ p.inForce = some (makePlan a ((s.opened sil due).steady.planPeriod)) ∧ (s.pet.queue = [] → q = []) := by
  obtain ⟨sil, due, ho⟩ := s.openCycle_eq
  obtain ⟨p, o, hi, hp, -⟩ := (s.opened sil due).steady.installOwn_eq a
  let s2 := ((s.opened sil due).steady.installed a p o).parted true a (some (sp.low, sp.high))
  have hq : s2.endSplit.pet.queue = s.pet.queue := ((s.opened sil due).steady.installed_idle a p o).1
  unfold State.switchSplit
  rw [ha, hs, ho]
  dsimp only
  rw [State.install_of_holds (s := (s.opened sil due).steady) hh, hi]
  refine ⟨sil, due, p, o, ?_⟩
  split
  · next t e _ _ _ _ =>
    obtain ⟨q, as, o', h, hn⟩ := s2.endSplit.answer_brk_eq t e
    exact ⟨q, as, o', congrArg (State.latchMark · true) h, hp, fun hz => hn (hq.trans hz)⟩
  · exact ⟨s2.endSplit.pet.queue, s2.endSplit.pet.answers, s2.outbox, rfl, hp, fun hz => hq.trans hz⟩

theorem keepTableAbove_of_epoch {t : Table} {ep : Epoch} (h : t.epoch = ep) : keepTableAbove ep (some t) = none := by
  unfold keepTableAbove
  rw [Option.filter_some, if_neg (by rw [h]; simp)]

/-- Settles O49. -/
theorem splitArmsAndSwitches : Obligations.SplitArmsAndSwitches := by
  refine ⟨fun s sp hp hl hs hd hq hr => armedReached_told hp hl hs hd hq hr, fun s sp a hp hl hs ha hh hq => ?_⟩
  let t0 := s.advanceTo s.counterReturn
  have h0 : Passed s t0 := s.advanceTo_passed _
  obtain ⟨n, hs0⟩ := State.advance_split hs (s.counterReturn - s.now)
  obtain ⟨sil, due, p, o, q, as, o', hw, hpl, hqn⟩ := State.switchSplit_eq (s := t0) (a := a)
    (by rw [h0.form]; exact ha) hs0 (by rw [h0.ownTag]; exact hh)
  let y := ((((t0.opened sil due).steady.installed a p o).endSplit).withAnswers q as o')
  have hx : exec .splitSwitch s = finish t0 (y.latchMark true) := by
    rw [exec_splitSwitch, execSplitSwitch, leaderRow_of hp hl, ← hw]
  have hm := State.latchMark_marked (s := y) true (hqn (h0.queue.trans hq)) (.inr rfl)
  obtain ⟨b, hpet⟩ := hm.pet
  have hnode : t0.form.node = .lead := h0.node.trans (node_of_leadStart hl)
  refine ⟨_, hx, ?_, ?_, ?_, ?_, ?_, ?_, ?_, ?_⟩
  · rw [settle_form, hm.form]; exact hnode
  · rw [settle_form, hm.form]; rfl
  · rw [settle_pet, hpet]; rfl
  · rw [settle_pet, hpet]; rfl
  · rw [settle_form, hm.form]; rfl
  · rw [settle_form, hm.form]; rfl
  · rw [settle_form, hm.form]; rfl
  · rw [settle_planner, hm.inForce]
    refine hpl.trans ?_
    rw [State.planPeriod_of_lead (s := (t0.opened sil due).steady) hnode]
    show some (makePlan a t0.settings.period) = _
    rw [h0.settings]

/-! ## The join's deadlines (R107, R109) -/

/-- A join abandoned at its deadline, for either of the two rows (R107, R109). -/
theorem abandoned_told {s : State} {row : LeadStart} {j : JoinProgress} (hp : s.powered = true)
    (hl : s.leadStart = some row) (hj : s.pet.join = some j) (hq : s.pet.queue = []) (hr : RoomFor s j.reporter) :
    ∃ t, leaderRow s row State.abandonJoin = .next t ∧ t.pet.join = none ∧ t.pet.inProgress = none
      ∧ t.form.procedure = some .steady ∧ t.form.otherTag = none
      ∧ t.pet.answers = s.pet.answers
          ++ [answerTo j.reporter .joinSeen (some j.reporterEnd) .joinAbandoned (some .deadline)] := by
  let t0 := s.advanceTo s.counterReturn
  have h0 : Passed s t0 := s.advanceTo_passed _
  obtain ⟨sil, due, ho⟩ := t0.openCycle_eq
  let a := answerTo j.reporter .joinSeen (some j.reporterEnd) .joinAbandoned (some .deadline)
  let y : State := (t0.opened sil due).steady.endJoin.pushAnswer a
  have hans : t0.pet.answers = s.pet.answers := by rw [h0.pet]
  have hx : leaderRow s row State.abandonJoin = finish t0 (y.latchMark false) := by
    rw [leaderRow_of hp hl]
    refine congrArg (finish t0) ?_
    show t0.abandonJoin = _
    unfold State.abandonJoin
    rw [show t0.pet.join = some j by rw [h0.pet]; exact hj, ho]
    refine congrArg (State.latchMark · false) (State.answer_push ?_ ?_)
    · rw [answerTo_isOwn]
      exact beq_eq_false_iff_ne.mpr (by show j.reporter ≠ t0.ownTag; rw [h0.ownTag]; exact hr.1)
    · show t0.pet.answers.length < 16
      rw [hans]
      exact hr.2
  have hm := State.latchMark_marked (s := y) false (h0.queue.trans hq) (.inr rfl)
  obtain ⟨b, hpet⟩ := hm.pet
  refine ⟨_, hx, ?_, ?_, ?_, ?_, ?_⟩
  · rw [settle_pet, hpet]; rfl
  · rw [settle_pet, hpet]; rfl
  · rw [settle_form, hm.form]; rfl
  · rw [settle_form, hm.form]; rfl
  · rw [settle_pet, hpet, ← hans]; rfl

/-! ## The end of a yield (R110, R113) -/

/-- Settles O51. -/
theorem yieldEndEntersSeek : Obligations.YieldEndEntersSeek := by
  intro s hp hl
  let t0 := s.advanceTo s.counterReturn
  have h0 : Passed s t0 := s.advanceTo_passed _
  have hx : exec .yieldEnd s = finish t0 t0.yieldLead := by
    rw [exec_yieldEnd, execYieldEnd, leaderRow_of hp hl]
  have hother : t0.form.otherTag = s.form.otherTag := by rw [h0.form]
  refine ⟨_, _, hx, ?_, ?_, by rw [settle_form]; rfl, ?_, rfl, rfl, ?_, ?_, ?_, ?_, ?_, ?_, ?_⟩
  · rw [settle_form]; rfl
  · rw [settle_timer]; rfl
  · show t0.form.otherTag.getD 0 = _
    rw [hother]
  · show t0.now + 64 * t0.settings.period = _
    rw [s.counterReturn_now, h0.settings]
  · rw [settle_timer]; rfl
  · rw [settle_pet]; exact h0.queue
  · rw [settle_pet]; rfl
  · rw [settle_pet]; rfl
  · rw [settle_pet]; rfl
  · rw [settle_form]; exact h0.current

/-! ## The first mark of a new leader (R31, R83, R138) -/

theorem Passed.armedJoint {s y : State} (h : Passed s y) : y.armedJoint = s.armedJoint := by
  have he : y.jointEntries = s.jointEntries := by
    unfold State.jointEntries
    rw [h.node, h.entries, show y.form.asmCurrent = s.form.asmCurrent by rw [h.form]]
  unfold State.armedJoint
  rw [he, show y.form.armedA = s.form.armedA by rw [h.form], show y.form.armedB = s.form.armedB by rw [h.form]]

/-- What a new leader's first mark tells, by the state in which it is latched. -/
theorem firstMark_latched {y b : State} {tb : Table} (hc : y.form.current = some tb) (hq : y.pet.queue = [])
    (hd : y.pet.deferred = false) :
    let t := State.settle b (y.latchMark true)
    (t.form.node = y.form.node ∧ t.form.current = some tb ∧ t.form.led = y.form.led)
      ∧ (t.form.procedure = y.form.procedure ∧ t.form.pendingT = y.form.pendingT ∧ t.form.countdown = y.form.countdown)
      ∧ (t.timer.lock = y.timer.lock ∧ t.timer.counter = y.timer.counter ∧ t.timer.index = y.timer.index)
      ∧ t.timer.latched.map MarkFields.countdown = some t.form.countdown
      ∧ t.timer.latched.map MarkFields.procedure = some (y.form.procedure.getD .steady)
      ∧ t.timer.latched.map MarkFields.leader = some y.ownTag
      ∧ t.timer.latched.map MarkFields.epoch = some tb.epoch
      ∧ t.timer.latched.map MarkFields.n = some tb.size := by
  intro t
  have hm := State.latchMark_marked (s := y) true hq (.inl hd)
  have hf : t.form = y.markedForm true := (settle_form _ _).trans hm.form
  have ht : t.timer = { y.timer with latched := some y.markFields } := (settle_timer _ _).trans hm.timer
  have keeps : ∀ {α : Type} (g : FormationUnit → α), (∀ f : FormationUnit, g f.dropArmed = g f) →
      (∀ (f : FormationUnit) r, g { f with rollPointer := r } = g f) → g (y.markedForm true) = g y.form :=
    fun g h1 h2 => State.markedForm_field g h1 h2 y true
  rw [hf, ht]
  refine ⟨⟨keeps FormationUnit.node (fun _ => rfl) fun _ _ => rfl,
      (keeps FormationUnit.current (fun _ => rfl) fun _ _ => rfl).trans hc,
      keeps FormationUnit.led (fun _ => rfl) fun _ _ => rfl⟩,
    ⟨keeps FormationUnit.procedure (fun _ => rfl) fun _ _ => rfl, keeps FormationUnit.pendingT (fun _ => rfl) fun _ _ => rfl,
      keeps FormationUnit.countdown (fun _ => rfl) fun _ _ => rfl⟩,
    ⟨rfl, rfl, rfl⟩, ?_, rfl, rfl, ?_, ?_⟩
  · rw [keeps FormationUnit.countdown (fun _ => rfl) fun _ _ => rfl]
    rfl
  · show some ((y.form.current.map Table.epoch).getD 0) = _
    rw [hc]
    rfl
  · show some y.n = _
    rw [State.n, State.entries, hc]
    rfl

/-- The leader's state as its led table is installed at its first mark (R138). -/
def State.ledInstalled (s : State) (led : Led) (sil : List Silence) (due : List Tag) (p : Planner)
    (o : List (Nat × NoticeBody)) : State :=
  let x := s.opened sil due
  ({ x with form := { x.form with led := none }, timer := { x.timer with followed := none } } : State).installed led.table p o

theorem State.firstMark_eq (s : State) (led : Led) : ∃ sil due p o,
    (s.chan.watch = [] → o.length = 1)
    ∧ (led.by_ = .designatedB → s.firstMark led =
        ((((s.ledInstalled led sil due p o).parted false led.table s.armedJoint).steady.regrant).countDown).latchMark true)
    ∧ (led.by_ = .resume → s.firstMark led = ((s.ledInstalled led sil due p o).countDown).latchMark true)
    ∧ (led.by_ ≠ .designatedB → led.by_ ≠ .resume → ∃ o', s.firstMark led =
        (((((s.ledInstalled led sil due p o).withOutbox o').steady).countDown).latchMark true)) := by
  obtain ⟨sil, due, ho⟩ := s.openCycle_eq
  let x := s.opened sil due
  let s2 : State := { x with form := { x.form with led := none }, timer := { x.timer with followed := none } }
  obtain ⟨p, o, hi, -, -, hw⟩ := s2.installOwn_eq led.table
  have hi' : s2.installOwn led.table = s.ledInstalled led sil due p o := hi
  refine ⟨sil, due, p, o, fun h => ?_, fun h => ?_, fun h => ?_, fun h1 h2 => ?_⟩
  · obtain ⟨b, rfl⟩ := hw h
    rfl
  all_goals
    unfold State.firstMark State.reportLed
    dsimp only
    rw [ho, hi']
  · rw [h]
  · rw [h]
  · cases h : led.by_ with
    | designatedB => exact absurd h h1
    | resume => exact absurd h h2
    | fastPath r => exact ⟨_, rfl⟩
    | succession => exact ⟨_, rfl⟩

/-- What the first mark tells where no table is announced anew. -/
theorem firstMark_steady {y b : State} {tb : Table} {own : Tag} (hn : y.form.node = .lead) (hl : y.form.led = none)
    (ht : y.timer.lock = .generating ∧ y.timer.counter = 0) (hp : y.form.procedure = some .steady)
    (hown : y.ownTag = own) (hc : y.form.current = some tb) (hq : y.pet.queue = []) (hd : y.pet.deferred = false) :
    let t := State.settle b (y.latchMark true)
    t.form.node = .lead ∧ t.form.current = some tb ∧ t.form.led = none ∧ t.timer.lock = .generating
      ∧ t.timer.counter = 0 ∧ t.form.procedure = some .steady
      ∧ t.timer.latched.map MarkFields.procedure = t.form.procedure
      ∧ t.timer.latched.map MarkFields.leader = some own ∧ t.timer.latched.map MarkFields.epoch = some tb.epoch
      ∧ t.timer.latched.map MarkFields.n = some tb.size := by
  obtain ⟨⟨h1, h2, h3⟩, ⟨h4, -, -⟩, ⟨h5, h6, -⟩, -, h7, h8, h9, h10⟩ := firstMark_latched (b := b) hc hq hd
  refine ⟨h1.trans hn, h2, h3.trans hl, h5.trans ht.1, h6.trans ht.2, h4.trans hp, ?_, h8.trans (by rw [hown]), h9, h10⟩
  rw [h7, h4, hp]
  rfl

/-- The designated B leader's PARTED waits or begins, where there is room (R136). -/
theorem parted_told {y b : State} {body : NoticeBody} {o : List (Nat × NoticeBody)} (hq : y.pet.queue = [])
    (hd : y.pet.deferred = false) (hb : body.isChange = false) (ho : y.outbox = o ++ [(rankOutcome, body)])
    (hl : o.length = 1) (hw : y.chan.watch = []) (hn : y.link.notices.length ≤ 28) :
    Queues (State.settle b (y.latchMark true)) body := by
  have hm := State.latchMark_marked (s := y) true hq (.inl hd)
  obtain ⟨o', ho', hl'⟩ := hm.outbox hw
  refine settle_queues (r := rankOutcome) ?_ (by decide) hb (.inl (hm.watch.trans hw)) ?_
  · rw [ho', ho]
    simp
  · rw [ho', ho, hm.link]
    simp only [List.length_append, List.length_singleton]
    omega

/-- Whether a new leader's table overruns its period and is announced anew (R83). -/
abbrev State.regrants (s : State) (led : Led) : Prop :=
  led.by_ = .designatedB ∧ roundCapacity s.settings.period led.table.size < grantedDemand led.table.entries

/-- What the first mark of a new leader brings about (R31, R83, R136, R138). -/
abbrev FirstMarkTold (s : State) (led : Led) (t : State) : Prop :=
  t.form.node = .lead ∧ t.form.current = some led.table
    ∧ t.form.led = none ∧ t.timer.lock = .generating ∧ t.timer.counter = 0
    ∧ (¬ s.regrants led → t.form.procedure = some .steady)
    ∧ (s.regrants led → t.form.procedure = some .announce
      ∧ t.form.pendingT = some (Table.mk (led.table.epoch + 1)
          (grantKept s.settings.period s.ownTag led.table.entries))
      ∧ t.form.countdown = countdownFrom t.timer.index
          (announceLeast (grantKept s.settings.period s.ownTag led.table.entries).length)
      ∧ t.timer.latched.map MarkFields.countdown = some t.form.countdown)
    ∧ t.timer.latched.map MarkFields.procedure = t.form.procedure
    ∧ t.timer.latched.map MarkFields.leader = some s.ownTag
    ∧ t.timer.latched.map MarkFields.epoch = some led.table.epoch
    ∧ t.timer.latched.map MarkFields.n = some led.table.size
    ∧ (led.by_ = .designatedB → AtRest s → s.chan.watch = [] → s.link.notices.length ≤ 28 →
      Queues t (.splitOutcome .split (.parted { sideA := false, epoch := led.table.epoch, size := led.table.size
                                                joint := s.armedJoint })))

/-- Settles O52. -/
theorem firstMarkInstallsLedTable : Obligations.FirstMarkInstallsLedTable := by
  intro s led hp hl hled hres hh hq hd
  show ∃ t, exec .firstGeneratedMark s = .next t ∧ FirstMarkTold s led t
  let t0 := s.advanceTo s.firstMarkDue
  have h0 : Passed s t0 := s.advanceTo_passed _
  have hx : exec .firstGeneratedMark s = finish t0 (t0.firstMark led) := by
    rw [exec_firstGeneratedMark, execFirstGeneratedMark, whenPowered_of_powered hp, hled, hl]
  obtain ⟨sil, due, p, o, hlen, hdes, hresume, hother⟩ := t0.firstMark_eq led
  let z := t0.ledInstalled led sil due p o
  have hnode : z.form.node = .lead := h0.node.trans (node_of_leadStart hl)
  have hidle := State.installed_idle (s := { t0.opened sil due with
    form := { t0.form with led := none }, timer := { t0.openedTimer with followed := none } }) led.table p o
  have hzq : z.pet.queue = [] := hidle.1.trans (h0.queue.trans hq)
  have hzd : z.pet.deferred = false := hidle.2.1.trans (show t0.pet.deferred = false by rw [h0.pet]; exact hd)
  have hown : z.ownTag = s.ownTag := h0.ownTag
  have plain : ∀ y : State, y.form.node = z.form.node → y.form.led = none → y.timer = z.timer →
      y.form.procedure = some .steady → y.store = z.store → y.form.current = some led.table → y.pet.queue = z.pet.queue →
      y.pet.deferred = z.pet.deferred → t0.firstMark led = y.latchMark true → ¬ s.regrants led →
      (led.by_ = .designatedB → AtRest s → s.chan.watch = [] → s.link.notices.length ≤ 28 →
        Queues (State.settle t0 (y.latchMark true)) (.splitOutcome .split (.parted
          { sideA := false, epoch := led.table.epoch, size := led.table.size, joint := s.armedJoint }))) →
      ∃ t, exec .firstGeneratedMark s = .next t ∧ FirstMarkTold s led t := by
    intro y hn hle ht hpr hst hc hyq hyd hy hnr hpart
    obtain ⟨h1, h2, h3, h4, h5, h6, h7, h8, h9, h10⟩ := firstMark_steady (b := t0) (own := s.ownTag) (hn.trans hnode) hle
      ⟨by rw [ht]; rfl, by rw [ht]; rfl⟩ hpr ((State.ownTag_congr hst).trans hown) hc (hyq.trans hzq) (hyd.trans hzd)
    exact ⟨_, hx.trans (congrArg (finish t0) hy), h1, h2, h3, h4, h5, fun _ => h6, fun h => absurd h hnr, h7, h8, h9, h10, hpart⟩
  have hproc : t0.form.procedure = s.form.procedure := by rw [h0.form]
  by_cases hb : led.by_ = .designatedB
  · let q := (z.parted false led.table t0.armedJoint).steady
    have hlink : q.link = s.link := s.advance_link _
    have hqw : s.chan.watch = [] → q.chan.watch = [] := fun h => show t0.chan.watch = [] by rw [h0.chan]; exact h
    have hqo : AtRest s → q.outbox = o ++ [(rankOutcome, .splitOutcome .split (.parted
        { sideA := false, epoch := led.table.epoch, size := led.table.size, joint := s.armedJoint }))] := by
      intro hr
      have hout : t0.outbox = [] := (s.advance_outbox _).trans hr.1
      show (t0.outbox ++ o) ++ [(rankOutcome, _)] = _
      rw [hout, List.nil_append, h0.armedJoint]
    have told : ∀ y : State, y.pet.queue = z.pet.queue → y.pet.deferred = z.pet.deferred → y.outbox = q.outbox →
        y.chan = q.chan → y.link = q.link → AtRest s → s.chan.watch = [] → s.link.notices.length ≤ 28 →
        Queues (State.settle t0 (y.latchMark true)) (.splitOutcome .split (.parted
          { sideA := false, epoch := led.table.epoch, size := led.table.size, joint := s.armedJoint })) := by
      intro y hyq hyd hyo hyc hyl hr hw hn
      exact parted_told (hyq.trans hzq) (hyd.trans hzd) rfl (hyo.trans (hqo hr)) (hlen (by rw [h0.chan]; exact hw))
        (by rw [hyc]; exact hqw hw) (by rw [hyl, hlink]; exact hn)
    have hset : q.settings = s.settings := h0.settings
    by_cases hr : s.regrants led
    · let ens := grantKept s.settings.period s.ownTag led.table.entries
      have hreg : q.regrant = q.announce ens := by
        have hcap : roundCapacity q.settings.period q.n < grantedDemand q.entries := by
          rw [hset]
          exact hr.2
        refine (if_pos hcap).trans ?_
        rw [hset, show q.ownTag = s.ownTag from hown]
        rfl
      let y := (q.announce ens).countDown
      have hy : t0.firstMark led = y.latchMark true := by
        refine (hdes hb).trans ?_
        show (q.regrant.countDown).latchMark true = _
        rw [hreg]
      obtain ⟨⟨h1, h2, h3⟩, ⟨h4, h5, h6⟩, ⟨h7, h8, h9⟩, h10, h11, h12, h13, h14⟩ :=
        firstMark_latched (y := y) (b := t0) (tb := led.table) rfl hzq hzd
      refine ⟨_, hx.trans (congrArg (finish t0) hy), h1.trans hnode, h2, h3, h7, h8, fun h => absurd hr h,
        fun _ => ⟨h4, h5, ?_, h10⟩, ?_, h12.trans (congrArg some hown), h13, h14, fun _ => told y rfl rfl rfl rfl rfl⟩
      · rw [h6, h9]
        rfl
      · rw [h11, h4]
        rfl
    · have hreg : q.regrant = q := if_neg (by
        show ¬ roundCapacity q.settings.period led.table.size < grantedDemand led.table.entries
        rw [hset]
        exact fun h => hr ⟨hb, h⟩)
      refine plain q.countDown rfl rfl rfl rfl rfl rfl rfl rfl ((hdes hb).trans ?_) hr
        (fun _ => told q.countDown rfl rfl rfl rfl rfl)
      show (q.regrant.countDown).latchMark true = _
      rw [hreg]
  · by_cases hs : led.by_ = .resume
    · exact plain z.countDown rfl rfl rfl (hproc.trans (hres hs)) rfl rfl rfl rfl (hresume hs) (fun h => hb h.1)
        (fun h => absurd h hb)
    · obtain ⟨o', ho'⟩ := hother hb hs
      exact plain ((z.withOutbox o').steady.countDown) rfl rfl rfl rfl rfl rfl rfl rfl ho' (fun h => hb h.1)
        (fun h => absurd h hb)

end Sys2Proof.Machine
end

section
/-! PROOFS. Cells of the image and channels taken at a cycle start (R150, R151, R155 to R157). -/

namespace Sys2Proof.Machine

open Sys2Proof

/-! ## Cells found -/

theorem cellAt_map {f : ImageCell → ImageCell} (hf : ∀ c, (f c).position = c.position ∧ (f c).channel = c.channel)
    (img : List ImageCell) (q ch : Nat) : cellAt (img.map f) q ch = (cellAt img q ch).map f := by
  unfold cellAt
  rw [List.find?_map]
  congr 2
  funext c
  simp [hf c]

theorem cellOfTag_map {f : ImageCell → ImageCell} (hf : ∀ c, (f c).tag = c.tag ∧ (f c).channel = c.channel)
    (img : List ImageCell) (t : Tag) (ch : Nat) : cellOfTag (img.map f) t ch = (cellOfTag img t ch).map f := by
  unfold cellOfTag
  rw [List.find?_map]
  congr 2
  funext c
  simp [hf c]

theorem cellAt_some {img : List ImageCell} {q ch : Nat} {c : ImageCell} (h : cellAt img q ch = some c) :
    c.position = some q ∧ c.channel = ch := by
  have := List.find?_some h
  simpa using this

theorem cellOfTag_some {img : List ImageCell} {t : Tag} {ch : Nat} {c : ImageCell} (h : cellOfTag img t ch = some c) :
    c.tag = t ∧ c.channel = ch := by
  have := List.find?_some h
  simpa using this

/-- A value taken by the cell of its position and channel (R154, R155). -/
theorem cellAt_takeAt_same (img : List ImageCell) (p ch : Nat) (pl : List Octet) (age : Nat) (stale : Bool) :
    cellAt (takeAt img p ch pl age stale) p ch = (cellAt img p ch).map fun c => c.take pl age stale := by
  refine (cellAt_map ?_ img p ch).trans ?_
  · intro c; split <;> exact ⟨rfl, rfl⟩
  · cases h : cellAt img p ch with
    | none => rfl
    | some c =>
      obtain ⟨hp, hc⟩ := cellAt_some h
      simp [hp, hc]

/-- No other cell takes it. -/
theorem cellAt_takeAt_other (img : List ImageCell) {p ch q c : Nat} (hne : ¬ (q = p ∧ c = ch)) (pl : List Octet)
    (age : Nat) (stale : Bool) : cellAt (takeAt img p ch pl age stale) q c = cellAt img q c := by
  refine (cellAt_map ?_ img q c).trans ?_
  · intro c; split <;> exact ⟨rfl, rfl⟩
  · cases h : cellAt img q c with
    | none => rfl
    | some x =>
      obtain ⟨hp, hc⟩ := cellAt_some h
      have : ¬ (x.position = some p ∧ x.channel = ch) := by
        rw [hp, hc, Option.some_inj]; exact hne
      simp [this]

/-- The cell a cycle start leaves, its receive age raised (R156). -/
def ImageCell.raised (c : ImageCell) : ImageCell := { c with receiveAge := min 255 (c.receiveAge + 1) }

theorem State.turnCycle_cells (s : State) : s.turnCycle.cells = s.cells.map ImageCell.raised := by
  show (s.chan.image.map _).getD [] = _
  unfold State.cells
  cases s.chan.image <;> rfl

theorem State.turnCycle_cellAt (s : State) (q ch : Nat) :
    cellAt s.turnCycle.cells q ch = (cellAt s.cells q ch).map ImageCell.raised := by
  rw [State.turnCycle_cells]
  exact cellAt_map (f := ImageCell.raised) (fun _ => ⟨rfl, rfl⟩) _ _ _

/-! ## One channel taken -/

/-- A channel and its own cell as they were. -/
structure Untaken (x y : State) (ch : Nat) : Prop where
  out : y.chan.out[ch]? = x.chan.out[ch]?
  live : y.chan.live.find? (fun l => l.channel == ch) = x.chan.live.find? fun l => l.channel == ch
  cell : cellAt y.cells x.ownPosition ch = cellAt x.cells x.ownPosition ch

/-- The live copy that a take of a channel makes (R150). -/
def State.liveOf (x : State) (ch : Nat) (o : OutChannel) : LiveCopy :=
  { channel := ch, age := o.ageAfter, stale := decide (x.settings.staleLimit ≤ o.ageAfter)
    payload := if x.ownOrientation = some .reversed ∧
        (x.ownEntry.bind fun en => en.channels[ch]?).map ChannelDesc.sided = some true
      then o.staging.drop 16 ++ o.staging.take 16 else o.staging }

/-- A channel and its own cell as a take leaves them (R150, R155). -/
structure TakenOf (x y : State) (ch : Nat) (o : OutChannel) : Prop where
  out : y.chan.out[ch]? = some { o with written := false, age := o.ageAfter }
  live : y.chan.live.find? (fun l => l.channel == ch) = some (x.liveOf ch o)
  cell : cellAt y.cells x.ownPosition ch = (cellAt x.cells x.ownPosition ch).map fun c =>
    c.take o.staging o.ageAfter (decide (x.settings.staleLimit ≤ o.ageAfter))

theorem State.cells_takeChannel (x : State) (c : Nat) : (x.takeChannel c).cells =
    takeAt x.cells x.ownPosition c (x.outOf c).staging (x.outOf c).ageAfter
      (decide (x.settings.staleLimit ≤ (x.outOf c).ageAfter)) := by
  show (x.chan.image.map _).getD [] = _
  unfold State.cells
  cases x.chan.image <;> rfl

theorem takeChannel_other {x : State} {c ch : Nat} (h : c ≠ ch) : Untaken x (x.takeChannel c) ch where
  out := List.getElem?_set_ne h
  live := by
    show (x.chan.live ++ [_]).find? _ = _
    rw [List.find?_append, List.find?_singleton]
    simp [h]
  cell := by
    rw [State.cells_takeChannel]
    exact cellAt_takeAt_other _ (fun hc => h hc.2.symm) _ _ _

theorem takeChannel_same {x : State} {ch : Nat} {o : OutChannel} (ho : x.chan.out[ch]? = some o)
    (hl : x.chan.live.find? (fun l => l.channel == ch) = none) : TakenOf x (x.takeChannel ch) ch o := by
  have hof : x.outOf ch = o := by
    unfold State.outOf
    rw [List.getD_eq_getElem?_getD, ho]
    rfl
  refine ⟨?_, ?_, ?_⟩
  · show (x.chan.out.set ch _)[ch]? = _
    rw [List.getElem?_set_self (List.getElem?_eq_some_iff.mp ho).1, hof]
  · show (x.chan.live ++ [_]).find? _ = _
    rw [List.find?_append, hl, hof, List.find?_singleton]
    simp only [beq_self_eq_true, if_true, Option.none_or, State.liveOf, sensed, swapHalves]
    congr 2
    cases x.ownEntry with
    | none => simp
    | some en => cases h : en.channels[ch]? <;> simp [h]
  · rw [State.cells_takeChannel, hof]
    exact cellAt_takeAt_same _ _ _ _ _ _

/-! ## The channels of a cycle taken -/

theorem takeChannels_not_mem {chs : List Nat} {ch : Nat} (h : ch ∉ chs) (x : State) :
    Untaken x (chs.foldl State.takeChannel x) ch := by
  induction chs generalizing x with
  | nil => exact ⟨rfl, rfl, rfl⟩
  | cons c chs ih =>
    obtain ⟨hc, hr⟩ := List.ne_and_not_mem_of_not_mem_cons h
    have h1 := takeChannel_other (x := x) (Ne.symm hc)
    have h2 := ih hr (x.takeChannel c)
    exact ⟨h2.out.trans h1.out, h2.live.trans h1.live, h2.cell.trans h1.cell⟩

theorem takeChannels_mem {chs : List Nat} (hn : chs.Nodup) {ch : Nat} (h : ch ∈ chs) {x : State} {o : OutChannel}
    (ho : x.chan.out[ch]? = some o) (hl : x.chan.live.find? (fun l => l.channel == ch) = none) :
    TakenOf x (chs.foldl State.takeChannel x) ch o := by
  induction chs generalizing x with
  | nil => cases h
  | cons c chs ih =>
    obtain ⟨hc, hn'⟩ := List.nodup_cons.mp hn
    by_cases he : ch = c
    · subst he
      have h1 := takeChannel_same ho hl
      have h2 := takeChannels_not_mem hc (x.takeChannel ch)
      exact ⟨h2.out.trans h1.out, h2.live.trans h1.live, h2.cell.trans h1.cell⟩
    · have h1 := takeChannel_other (x := x) (Ne.symm he)
      have h2 := ih hn' ((List.mem_cons.mp h).resolve_left he) (x := x.takeChannel c) (h1.out.trans ho) (h1.live.trans hl)
      exact ⟨h2.out, h2.live, h2.cell.trans (congrArg (Option.map _) h1.cell)⟩

/-- Cells of other cars are not taken. -/
theorem takeChannels_elsewhere (chs : List Nat) (x : State) {q : Nat} (hq : q ≠ x.ownPosition) (ch : Nat) :
    cellAt (chs.foldl State.takeChannel x).cells q ch = cellAt x.cells q ch := by
  induction chs generalizing x with
  | nil => rfl
  | cons c chs ih =>
    refine (ih (x.takeChannel c) hq).trans ?_
    rw [State.cells_takeChannel]
    exact cellAt_takeAt_other _ (fun h => hq h.1) _ _ _

/-- The channels that are taken at a state's index: those of the plan that the settings in use take in (R149, R150). -/
def State.channelsDue (s : State) (p : Plan) : List Nat :=
  (p.channelsAt s.ownPosition s.timer.index).filter fun ch => decide (ch < s.settings.channels.length)

theorem State.channelsDue_nodup (s : State) (p : Plan) : (s.channelsDue p).Nodup :=
  (List.nodup_range.filter _).filter _

theorem State.mem_channelsDue (s : State) (p : Plan) (ch : Nat) : ch ∈ s.channelsDue p ↔
    ch < s.settings.channels.length ∧ ch < 8 ∧ ∃ c ∈ p.cells, c.position = s.ownPosition ∧ c.index = s.timer.index
      ∧ c.channel = ch := by
  simp only [State.channelsDue, Plan.channelsAt, List.mem_filter, List.mem_range, List.any_eq_true, Bool.and_eq_true,
    beq_iff_eq, decide_eq_true_eq]
  tauto

theorem State.takeChannels_chan {s : State} {p : Plan} (hp : s.planner.inForce = some p) (hs : s.sends = true) :
    s.takeChannels.chan = ((s.channelsDue p).foldl State.takeChannel s).chan := by
  have h : s.takeChannels = ((s.channelsDue p).foldl State.takeChannel s).noticeChanges s.cells := by
    unfold State.takeChannels
    rw [hp]
    exact if_pos hs
  rw [h]
  exact (congrArg State.chan (State.noticeChanges_interior _ _) :)

end Sys2Proof.Machine
end

section
/-! PROOFS. The generated starts of a leader: what each opens, and the plain one's channels (R23, R26, R29, R150 to R156). -/

namespace Sys2Proof.Machine

open Sys2Proof

/-! ## The beat -/

/-- The instant and the cycle timer's count of it. -/
structure Beat where
  now : Nat
  counter : Nat
  index : Nat
  round : Round
  kind : CycleKind
  nextSlot : Nat

/-- The beat of a state. -/
def State.beat (s : State) : Beat :=
  { now := s.now, counter := s.timer.counter, index := s.timer.index, round := s.timer.round, kind := s.timer.kind
    nextSlot := s.timer.nextSlot }

/-- The beat of a cycle that opens (R26). -/
def State.openBeat (s : State) : Beat :=
  { now := s.now, counter := 0, index := (s.timer.index + 1) % 4, kind := .marked, nextSlot := 0
    round := if (s.timer.index + 1) % 4 = 0 then s.timer.round + 1 else s.timer.round }

theorem beat_of_station {s t : State} (h : t.station = s.station) : t.beat = s.beat := (congrArg State.beat h :)

theorem State.openCycle_beat (s : State) : s.openCycle.beat = s.openBeat := by
  obtain ⟨sil, due, h⟩ := s.openCycle_eq
  rw [h]
  rfl

theorem State.latchMark_beat (s : State) (switch : Bool) : (s.latchMark switch).beat = s.beat := by
  obtain ⟨u, v, p, b, o, h, -⟩ := s.handedMark_eq switch
  obtain ⟨c, o', h', -⟩ := (s.handedMark switch).takeChannels_only
  rw [beat_of_station (s.latchMark_station switch), h', h]
  rfl

theorem State.answer_beat (s : State) (a : Answer) : (s.answer a).beat = s.beat := beat_of_station (s.answer_station a)

theorem State.loseCab_beat (s : State) : s.loseCab.beat = s.beat := by
  unfold State.loseCab
  dsimp only
  split <;> rfl

theorem State.becomeApplicant_beat (s : State) (t : Table) : (s.becomeApplicant t).beat = s.beat := by
  have follows : ∀ (x : State) (l : Tag), ((x.discardWants.dropLive.loseCab).notify rankFormation
      (.formation t.epoch t.size 0 none l)).beat = x.beat := by
    intro x l
    obtain ⟨o, h⟩ := x.discardWants_only
    refine (State.loseCab_beat x.discardWants.dropLive).trans ?_
    rw [h]
    rfl
  unfold State.becomeApplicant
  dsimp only
  rw [follows]
  unfold State.beat
  dsimp only
  split <;> rfl

theorem State.install_beat (s : State) (t : Table) : (s.install t).beat = s.beat := by
  unfold State.install
  split
  · obtain ⟨p, o, h, -⟩ := s.installOwn_eq t
    rw [h]
    rfl
  · exact s.becomeApplicant_beat t

/-- What a switch mark ends is the desk's, and a holder for the cab. -/
theorem State.endAnnounced_eq (s : State) : ∃ q as h d o, s.endAnnounced =
    ({ s with pet := { s.pet with
        queue := q, answers := as, holder := h, cabHeading := d
        inProgress := none, deferred := false, join := none, split := none } } : State).withOutbox o
      ∧ (s.pet.queue = [] → q = []) := by
  unfold State.endAnnounced
  dsimp only
  split
  · next t e _ _ _ _ =>
    obtain ⟨q, as, o, h, hq⟩ := State.answer_brk_eq { s with pet := { s.pet with
      inProgress := none, deferred := false, join := none, split := none } } t e
    exact ⟨q, as, s.pet.holder, s.pet.cabHeading, o, h, hq⟩
  · split
    · split <;> exact ⟨s.pet.queue, s.pet.answers, _, _, _, rfl, id⟩
    · exact ⟨s.pet.queue, s.pet.answers, s.pet.holder, s.pet.cabHeading, _, rfl, id⟩
  · exact ⟨s.pet.queue, s.pet.answers, s.pet.holder, s.pet.cabHeading, s.outbox, rfl, id⟩

theorem State.endAnnounced_beat (s : State) : s.endAnnounced.beat = s.beat := by
  obtain ⟨q, as, h, d, o, he, -⟩ := s.endAnnounced_eq
  rw [he]
  rfl

/-! ## Each start opens a cycle -/

theorem State.generate_beat (s : State) : s.generate.beat = s.openBeat :=
  (State.latchMark_beat _ _).trans s.openCycle_beat

theorem State.switchTo_beat (s : State) : s.switchTo.beat = s.openBeat := by
  unfold State.switchTo
  dsimp only
  split
  · rw [State.latchMark_beat, State.endAnnounced_beat, State.install_beat]
    exact s.openCycle_beat
  · rw [State.latchMark_beat]
    exact s.openCycle_beat

theorem State.reachArmed_beat (s : State) : s.reachArmed.beat = s.openBeat := by
  unfold State.reachArmed
  dsimp only
  rw [State.latchMark_beat]
  split
  · rw [State.answer_beat]
    exact s.openCycle_beat
  · exact s.openCycle_beat

theorem State.switchSplit_beat (s : State) : s.switchSplit.beat = s.openBeat := by
  unfold State.switchSplit
  dsimp only
  split
  · rw [State.latchMark_beat]
    have hi := fun a => (State.install_beat s.openCycle.steady a).trans s.openCycle_beat
    split
    · rw [State.answer_beat]
      exact hi _
    · exact hi _
  · rw [State.latchMark_beat]
    exact s.openCycle_beat

theorem State.abandonJoin_beat (s : State) : s.abandonJoin.beat = s.openBeat := by
  unfold State.abandonJoin
  dsimp only
  split
  · rw [State.latchMark_beat, State.answer_beat]
    exact s.openCycle_beat
  · rw [State.latchMark_beat]
    exact s.openCycle_beat

theorem cycleOpened_of_beat {s : State} {c : Instr} {row : LeadStart} {f : State → State}
    (hc : exec c s = leaderRow s row f) (hp : s.powered = true)
    (hl : s.leadStart = some row) (hf : ∀ x : State, (f x).beat = x.openBeat) :
    ∃ t, exec c s = .next t ∧ CycleOpened s t ∧ t.now = s.counterReturn := by
  let t0 := s.advanceTo s.counterReturn
  have h0 : Passed s t0 := s.advanceTo_passed _
  have hb : (State.settle t0 (f t0)).beat = t0.openBeat := by
    unfold State.beat
    rw [settle_now, settle_timer]
    exact hf t0
  have hti : t0.timer.index = s.timer.index := by rw [h0.timer]
  have htr : t0.timer.round = s.timer.round := by rw [h0.timer]
  refine ⟨_, hc.trans (leaderRow_of hp hl f), ⟨(congrArg Beat.counter hb :), ?_, ?_, (congrArg Beat.kind hb :),
    (congrArg Beat.nextSlot hb :)⟩, (congrArg Beat.now hb :).trans s.counterReturn_now⟩
  · refine (congrArg Beat.index hb :).trans ?_
    show (t0.timer.index + 1) % 4 = _
    rw [hti]
  · refine (congrArg Beat.round hb :).trans ?_
    show (if (t0.timer.index + 1) % 4 = 0 then t0.timer.round + 1 else t0.timer.round) = _
    rw [hti, htr]

/-! ## The channels of a plain start -/

/-- The channel unit after a plain generated start: the channels due are taken, by a state that differs in what no take
looks at (R150, R155). -/
theorem State.generate_chan {s : State} {p : Plan} (hp : s.planner.inForce = some p) (hn : s.form.node = .lead)
    (hl : s.form.led = none) : ∃ x : State, s.generate.chan = ((x.channelsDue p).foldl State.takeChannel x).chan
      ∧ x.chan = s.turnCycle.chan ∧ x.form.current = s.form.current ∧ x.store = s.store
      ∧ x.timer.index = (s.timer.index + 1) % 4 := by
  obtain ⟨sil, due, ho⟩ := s.openCycle_eq
  let y := (s.opened sil due).countDown
  obtain ⟨u, v, pl, b, o, h, hpl, -⟩ := y.handedMark_eq false
  let x := y.withMark false u v pl b o
  have hg : s.generate = y.latchMark false := by
    show (s.openCycle.countDown).latchMark false = _
    rw [ho]
  have hnode : x.form.node = .lead :=
    (State.markedForm_field FormationUnit.node (fun _ => rfl) (fun _ _ => rfl) y false).trans hn
  have hled : x.form.led = none :=
    (State.markedForm_field FormationUnit.led (fun _ => rfl) (fun _ _ => rfl) y false).trans hl
  have hs : x.sends = true := by
    unfold State.sends State.leading
    rw [hnode, hled]
    rfl
  refine ⟨x, ?_, rfl, State.markedForm_field FormationUnit.current (fun _ => rfl) (fun _ _ => rfl) y false, rfl, rfl⟩
  have hc : s.generate.chan = x.takeChannels.chan := by
    rw [hg]
    refine (congrArg State.chan (y.latchMark_station false) :).trans ?_
    rw [h]
    rfl
  exact hc.trans (State.takeChannels_chan (hpl.trans hp) hs)

/-- What a state of the same table and store takes of a channel is the same. -/
theorem State.liveOf_congr {s x : State} (hf : x.form.current = s.form.current) (hs : x.store = s.store) (ch : Nat)
    (o : OutChannel) : x.liveOf ch o = s.liveOf ch o := by
  have ht : x.ownTag = s.ownTag := State.ownTag_congr hs
  have he : x.ownEntry = s.ownEntry := by rw [State.ownEntry, State.ownEntry, State.entries, State.entries, hf, ht]
  have hset : x.settings = s.settings := by rw [State.settings, State.settings, hs]
  unfold State.liveOf State.ownOrientation
  rw [he, hset]

/-- Settles O47. -/
theorem generatedStartsOpenCycles : Obligations.GeneratedStartsOpenCycles := by
  intro s hp opens
  refine ⟨fun h => ?_, fun h => ?_, fun h => ?_, fun h => ?_, fun h => ?_, fun h => ?_, fun p hl hplan => ?_⟩
  · exact cycleOpened_of_beat (exec_generatedCycleStart s) hp h State.generate_beat
  · exact cycleOpened_of_beat (exec_switchMark s) hp h State.switchTo_beat
  · exact cycleOpened_of_beat (exec_armedReached s) hp h State.reachArmed_beat
  · exact cycleOpened_of_beat (exec_splitSwitch s) hp h State.switchSplit_beat
  · exact cycleOpened_of_beat (exec_principalJoinDeadline s) hp h State.abandonJoin_beat
  · exact cycleOpened_of_beat (exec_absorbedJoinDeadline s) hp h State.abandonJoin_beat
  · intro own taken raised
    let t0 := s.advanceTo s.counterReturn
    have h0 : Passed s t0 := s.advanceTo_passed _
    obtain ⟨x, hc, hxc, hxf, hxs, hxi⟩ := State.generate_chan (s := t0) (by rw [h0.planner]; exact hplan)
      (h0.node.trans (node_of_leadStart hl))
      (show t0.form.led = none by rw [h0.form]; exact led_of_leadStart hl (by decide))
    have hxf' : x.form.current = s.form.current := hxf.trans h0.current
    have hxs' : x.store = s.store := hxs.trans h0.store
    have hpos : x.ownPosition = own := by
      show positionOf x.entries x.ownTag = positionOf s.entries s.ownTag
      rw [State.entries, State.entries, hxf', State.ownTag_congr hxs']
    have hset : x.settings = s.settings := by rw [State.settings, State.settings, hxs']
    have hcells : ∀ q ch, cellAt x.cells q ch = (cellAt s.cells q ch).map raised := by
      intro q ch
      have : x.cells = t0.turnCycle.cells := by rw [State.cells, State.cells, hxc]
      rw [this, State.turnCycle_cellAt, h0.cells]
      rfl
    have hdue : ∀ ch, ch ∈ x.channelsDue p ↔ taken ch := by
      intro ch
      rw [State.mem_channelsDue, hpos, hset, hxi, h0.timer]
    have hout : x.chan.out = s.chan.out := by
      rw [hxc]
      show t0.chan.out = _
      rw [h0.chan]
    have hlive : x.chan.live = [] := by rw [hxc]; rfl
    let z := (x.channelsDue p).foldl State.takeChannel x
    have hz : (State.settle t0 t0.generate).chan = z.chan := (settle_chan _ _).trans hc
    have hzc : (State.settle t0 t0.generate).cells = z.cells := by rw [State.cells, State.cells, hz]
    refine ⟨_, (exec_generatedCycleStart s).trans (leaderRow_of hp hl _), fun q ch hq => ?_, fun ch o ho => ?_⟩
    · show cellAt (State.settle t0 t0.generate).cells q ch = _
      rw [hzc, ← hcells]
      exact takeChannels_elsewhere _ x (by rw [hpos]; exact hq) ch
    · intro age stale exchanged
      show (_ → (State.settle t0 t0.generate).chan.out[ch]? = _ ∧ (State.settle t0 t0.generate).chan.live.find? _ = _
          ∧ cellAt (State.settle t0 t0.generate).cells own ch = _)
        ∧ (_ → (State.settle t0 t0.generate).chan.out[ch]? = _ ∧ (State.settle t0 t0.generate).chan.live.find? _ = _
          ∧ cellAt (State.settle t0 t0.generate).cells own ch = _)
      rw [hz, hzc]
      refine ⟨fun h => ?_, fun h => ?_⟩
      · have ht := takeChannels_mem (x.channelsDue_nodup p) ((hdue ch).mpr h) (by rw [hout]; exact ho) (by rw [hlive]; rfl)
        refine ⟨ht.out, ht.live.trans (congrArg some (State.liveOf_congr hxf' hxs' ch o)), ?_⟩
        have hcell := ht.cell
        rw [hpos, hset, hcells, Option.map_map] at hcell
        exact hcell
      · have hu := takeChannels_not_mem (fun hm => h ((hdue ch).mp hm)) x
        refine ⟨hu.out.trans (by rw [hout]; exact ho), hu.live.trans (by rw [hlive]; rfl), ?_⟩
        have hcell := hu.cell
        rw [hpos, hcells] at hcell
        exact hcell

end Sys2Proof.Machine
end

section
/-! PROOFS. The switch: the pending table installed, the image carried over to it (R58, R61, R156, R157). -/

namespace Sys2Proof.Machine

open Sys2Proof

/-! ## Cells that a cycle's takes leave -/

/-- What the takes of a cycle do to the cells: only those of the own position change, and none moves (R155). -/
structure TakesCells (own : Nat) (f : ImageCell → ImageCell) : Prop where
  position : ∀ c, (f c).position = c.position
  tag : ∀ c, (f c).tag = c.tag
  channel : ∀ c, (f c).channel = c.channel
  elsewhere : ∀ c, c.position ≠ some own → f c = c

theorem takeAt_takesCells (img : List ImageCell) (own ch : Nat) (pl : List Octet) (age : Nat) (stale : Bool) :
    ∃ f, takeAt img own ch pl age stale = img.map f ∧ TakesCells own f := by
  refine ⟨_, rfl, ?_, ?_, ?_, fun c hc => ?_⟩
  · intro c; split <;> rfl
  · intro c; split <;> rfl
  · intro c; split <;> rfl
  · simp [hc]

theorem takeChannels_takesCells (chs : List Nat) (x : State) :
    ∃ f, (chs.foldl State.takeChannel x).cells = x.cells.map f ∧ TakesCells x.ownPosition f := by
  induction chs generalizing x with
  | nil => exact ⟨id, by rw [List.map_id]; rfl, fun _ => rfl, fun _ => rfl, fun _ => rfl, fun _ _ => rfl⟩
  | cons c chs ih =>
    obtain ⟨g, hg, g1, g2, g3, g4⟩ := ih (x.takeChannel c)
    obtain ⟨f, hf, f1, f2, f3, f4⟩ := takeAt_takesCells x.cells x.ownPosition c (x.outOf c).staging (x.outOf c).ageAfter
      (decide (x.settings.staleLimit ≤ (x.outOf c).ageAfter))
    refine ⟨g ∘ f, ?_, fun c => (g1 _).trans (f1 c), fun c => (g2 _).trans (f2 c), fun c => (g3 _).trans (f3 c),
      fun c hc => (g4 _ (by rw [f1]; exact hc)).trans (f4 c hc)⟩
    rw [List.foldl_cons, hg, State.cells_takeChannel, hf, List.map_map]

theorem State.takeChannels_cells (s : State) :
    ∃ f, s.takeChannels.cells = s.cells.map f ∧ TakesCells s.ownPosition f := by
  unfold State.takeChannels
  split
  · exact takeChannels_takesCells [] s
  · next p _ =>
    split
    · obtain ⟨f, hf, h⟩ := takeChannels_takesCells (s.channelsDue p) s
      refine ⟨f, ?_, h⟩
      rw [← hf]
      exact (congrArg State.cells (State.noticeChanges_interior _ _) :)
    · exact takeChannels_takesCells [] s

/-! ## The image carried over (R157) -/

theorem rekeyCell_of (img : List ImageCell) (en : Entry) (ch : Nat) : (rekeyCell img en ch).position = some en.position
    ∧ (rekeyCell img en ch).tag = en.tag ∧ (rekeyCell img en ch).channel = ch := by
  unfold rekeyCell
  cases h : cellOfTag img en.tag ch with
  | none => exact ⟨rfl, rfl, rfl⟩
  | some c =>
    obtain ⟨ht, hc⟩ := cellOfTag_some h
    dsimp only
    split <;> exact ⟨rfl, ht, hc⟩

theorem ImageCell.suspend_keeps (c : ImageCell) (r : Rate) : (c.suspend r).position = c.position
    ∧ (c.suspend r).tag = c.tag ∧ (c.suspend r).channel = c.channel := by
  unfold ImageCell.suspend
  repeat' split
  all_goals exact ⟨rfl, rfl, rfl⟩

/-- The cells of one car in the image carried over. -/
def carriedCells (img : List ImageCell) (en : Entry) : List ImageCell :=
  en.channels.zipIdx.map fun p => (rekeyCell img en p.2).suspend p.1.granted

theorem mem_carriedCells {img : List ImageCell} {en : Entry} {x : ImageCell} (h : x ∈ carriedCells img en) :
    x.position = some en.position ∧ x.tag = en.tag ∧ x.channel < en.channels.length := by
  obtain ⟨⟨d, i⟩, hm, rfl⟩ := List.mem_map.mp h
  obtain ⟨h1, h2, h3⟩ := ImageCell.suspend_keeps (rekeyCell img en i) d.granted
  obtain ⟨k1, k2, k3⟩ := rekeyCell_of img en i
  have hi := (List.mem_zipIdx_iff_getElem?.mp hm : en.channels[i]? = some d)
  exact ⟨h1.trans k1, h2.trans k2, by rw [h3, k3]; exact (List.getElem?_eq_some_iff.mp hi).1⟩

theorem find_zipIdx {α : Type} (l : List α) (k i : Nat) :
    (l.zipIdx k).find? (fun p => p.2 == k + i) = l[i]?.map fun a => (a, k + i) := by
  induction l generalizing k i with
  | nil => rfl
  | cons a l ih =>
    rw [List.zipIdx_cons]
    cases i with
    | zero => simp
    | succ i =>
      rw [List.find?_cons_of_neg (by simp)]
      have := ih (k + 1) i
      rw [show k + 1 + i = k + (i + 1) by omega] at this
      simpa using this

theorem cellAt_carriedCells {img : List ImageCell} {en : Entry} {ch : Nat} {d : ChannelDesc}
    (hd : en.channels[ch]? = some d) :
    cellAt (carriedCells img en) en.position ch = some ((rekeyCell img en ch).suspend d.granted) := by
  unfold cellAt carriedCells
  rw [List.find?_map]
  have hp : ((fun c : ImageCell => c.position == some en.position && c.channel == ch) ∘
      fun p : ChannelDesc × Nat => (rekeyCell img en p.2).suspend p.1.granted) = fun p => p.2 == 0 + ch := by
    funext p
    obtain ⟨h1, -, h3⟩ := ImageCell.suspend_keeps (rekeyCell img en p.2) p.1.granted
    obtain ⟨k1, -, k3⟩ := rekeyCell_of img en p.2
    simp [h1, h3, k1, k3]
  rw [hp, find_zipIdx, hd]
  simp

/-- The cell of a channel of the new table (R157). -/
theorem cellAt_rekeyImage {img : List ImageCell} {ens : List Entry} {q ch : Nat} {en : Entry} {d : ChannelDesc}
    (he : entryAt ens q = some en) (hd : en.channels[ch]? = some d) :
    cellAt (rekeyImage img ens) q ch = some ((rekeyCell img en ch).suspend d.granted) := by
  have present : cellAt ((ens.map (carriedCells img)).flatten) q ch = some ((rekeyCell img en ch).suspend d.granted) := by
    induction ens with
    | nil => cases he
    | cons e ens ih =>
      rw [List.map_cons, List.flatten_cons, cellAt, List.find?_append]
      by_cases hq : e.position = q
      · have : en = e := by
          have h1 : entryAt (e :: ens) q = some e := List.find?_cons_of_pos (by simp [hq])
          exact Option.some.inj (he.symm.trans h1)
        subst this
        have := cellAt_carriedCells (img := img) hd
        rw [hq] at this
        rw [show List.find? _ _ = _ from this]
        rfl
      · have hn : (carriedCells img e).find? (fun c => c.position == some q && c.channel == ch) = none := by
          rw [List.find?_eq_none]
          intro x hx
          obtain ⟨h1, -⟩ := mem_carriedCells hx
          simp [h1, hq]
        rw [hn, Option.none_or]
        refine ih ?_
        rw [← he]
        exact (List.find?_cons_of_neg (by simp [hq])).symm
  unfold rekeyImage cellAt
  dsimp only
  rw [List.find?_append]
  have : List.find? (fun c : ImageCell => c.position == some q && c.channel == ch) ((ens.map (carriedCells img)).flatten)
    = _ := present
  rw [show (List.find? _ ((ens.map fun en => en.channels.zipIdx.map fun p =>
    (rekeyCell img en p.2).suspend p.1.granted).flatten)) = _ from this]
  rfl

theorem mem_rekeyImage {img : List ImageCell} {ens : List Entry} {x : ImageCell} {q : Nat} (h : x ∈ rekeyImage img ens)
    (hq : x.position = some q) :
    ∃ en ∈ ens, en.position = q ∧ en.tag = x.tag ∧ x.channel < en.channels.length := by
  rcases List.mem_append.mp h with h | h
  · obtain ⟨l, hl, hx⟩ := List.mem_flatten.mp h
    obtain ⟨en, hen, rfl⟩ := List.mem_map.mp hl
    obtain ⟨h1, h2, h3⟩ := mem_carriedCells (img := img) hx
    exact ⟨en, hen, Option.some.inj (h1.symm.trans hq), h2.symm, h3⟩
  · obtain ⟨c, -, rfl⟩ := List.mem_map.mp h
    cases hq

theorem rekeyImage_gone (img : List ImageCell) (ens : List Entry) :
    ((rekeyImage img ens).filter fun x => x.position.isNone) =
      (img.filter fun c => c.position.isSome && !holdsTag ens c.tag).map fun c =>
        { c with position := none, state := .gone } := by
  unfold rekeyImage
  dsimp only
  rw [List.filter_append]
  have h1 : ((ens.map (carriedCells img)).flatten.filter fun x => x.position.isNone) = [] := by
    rw [List.filter_eq_nil_iff]
    intro x hx
    obtain ⟨l, hl, hx⟩ := List.mem_flatten.mp hx
    obtain ⟨en, -, rfl⟩ := List.mem_map.mp hl
    rw [(mem_carriedCells hx).1]
    simp
  have h2 : ∀ l : List ImageCell, ((l.map fun c : ImageCell => { c with position := none, state := CellState.gone }).filter
      fun x => x.position.isNone) = l.map fun c => { c with position := none, state := .gone } := by
    intro l
    rw [List.filter_eq_self]
    intro x hx
    obtain ⟨c, -, rfl⟩ := List.mem_map.mp hx
    rfl
  rw [h2]
  exact congrArg (· ++ _) h1

/-! ## The switch mark (R58, R61) -/

/-- Another car's position is not the own one. -/
theorem positionOf_ne {ens : List Entry} {own : Tag} {q : Nat} {en : Entry} (hn : (ens.map Entry.position).Nodup)
    (hh : holdsTag ens own = true) (he : entryAt ens q = some en) (ht : en.tag ≠ own) : q ≠ positionOf ens own := by
  obtain ⟨x, hx, hxt⟩ := List.any_eq_true.mp hh
  have hsome : (entryOf ens own).isSome := List.find?_isSome.mpr ⟨x, hx, hxt⟩
  obtain ⟨o, ho⟩ := Option.isSome_iff_exists.mp hsome
  have hot : o.tag = own := by simpa using List.find?_some ho
  have hep : en.position = q := by simpa using List.find?_some he
  intro hq
  have hop : o.position = q := by rw [hq, positionOf, ho]; rfl
  have hsame : en = o := List.inj_on_of_nodup_map hn (List.mem_of_find?_eq_some he) (List.mem_of_find?_eq_some ho)
    (hep.trans hop.symm)
  exact ht (by rw [hsame, hot])

/-- The cell of a channel carried over from the raised image, as the manual words it (R157). -/
theorem rekeyCell_raised {img : List ImageCell} {en : Entry} {ch : Nat} :
    (∀ x, cellOfTag img en.tag ch = some x → rekeyCell (img.map ImageCell.raised) en ch =
      { x with
        position := some en.position, receiveAge := min 255 (x.receiveAge + 1)
        state := if x.position.isSome then x.state else if x.payload.isSome then .stale else .empty })
    ∧ (cellOfTag img en.tag ch = none → rekeyCell (img.map ImageCell.raised) en ch =
      { tag := en.tag, channel := ch, position := some en.position, state := .empty, payload := none,
        publisherAge := 0, receiveAge := 0 }) := by
  have hm := cellOfTag_map (f := ImageCell.raised) (fun _ => ⟨rfl, rfl⟩) img en.tag ch
  refine ⟨fun x hx => ?_, fun hx => ?_⟩
  · unfold rekeyCell
    rw [hm, hx]
    show (if x.position.isSome then _ else _) = _
    split <;> rfl
  · unfold rekeyCell
    rw [hm, hx]
    rfl

theorem suspend_eq (c : ImageCell) (r : Rate) : c.suspend r = { c with
    state := if r = .suspended then .suspended
      else if c.state = .suspended then (if c.payload.isSome then .stale else .empty) else c.state } := by
  unfold ImageCell.suspend
  split
  · rfl
  · split <;> rfl

/-- The switch mark as a state that latches its mark, and the image there (R58, R157). -/
theorem State.switchTo_eq {s : State} {tb : Table} (hp : s.form.pendingT = some tb)
    (hh : holdsTag tb.entries s.ownTag = true) (hq : s.pet.queue = []) (hn : s.form.node = .lead) : ∃ y : State,
      s.switchTo = y.latchMark true ∧ y.form = s.steady.form.take s.ownTag tb ∧ y.store = s.store
      ∧ (y.pet.queue = [] ∧ y.pet.deferred = false ∧ y.pet.inProgress = none ∧ y.pet.join = none)
      ∧ y.planner.inForce = some (makePlan tb s.settings.period)
      ∧ y.cells = rekeyImage (s.cells.map ImageCell.raised) tb.entries := by
  obtain ⟨sil, due, ho⟩ := s.openCycle_eq
  let x := (s.opened sil due).steady
  obtain ⟨p, o, hi, hpl, -⟩ := x.installOwn_eq tb
  obtain ⟨q, as, h, d, o', he, hqn⟩ := (x.installed tb p o).endAnnounced_eq
  refine ⟨(x.installed tb p o).endAnnounced, ?_, ?_, ?_, ?_, ?_, ?_⟩
  · unfold State.switchTo
    rw [hp, ho]
    dsimp only
    rw [State.install_of_holds (s := x) hh, hi]
  all_goals rw [he]
  · rfl
  · rfl
  · exact ⟨hqn ((x.installed_idle tb p o).1.trans hq), rfl, rfl, rfl⟩
  · refine hpl.trans ?_
    rw [State.planPeriod_of_lead (s := x) hn]
    rfl
  · show rekeyImage s.turnCycle.cells tb.entries = _
    rw [State.turnCycle_cells]

/-- Settles O48. -/
theorem switchMarkInstallsPending : Obligations.SwitchMarkInstallsPending := by
  intro s tb hp hl hpt hh hq
  let t0 := s.advanceTo s.counterReturn
  have h0 : Passed s t0 := s.advanceTo_passed _
  obtain ⟨y, hy, hyf, hys, ⟨hyq, hyd, hyi, hyj⟩, hyp, hyc⟩ := State.switchTo_eq (s := t0) (tb := tb)
    (by rw [h0.form]; exact hpt) (by rw [h0.ownTag]; exact hh) (h0.queue.trans hq) (h0.node.trans (node_of_leadStart hl))
  have hx : exec .switchMark s = finish t0 (y.latchMark true) := by
    rw [exec_switchMark, execSwitchMark, leaderRow_of hp hl, ← hy]
  have hm := State.latchMark_marked (s := y) true hyq (.inl hyd)
  obtain ⟨b, hpet⟩ := hm.pet
  have hkeep : ∀ {α : Type} (g : FormationUnit → α), (∀ f : FormationUnit, g f.dropArmed = g f) →
      (∀ (f : FormationUnit) r, g { f with rollPointer := r } = g f) →
      g (State.settle t0 (y.latchMark true)).form = g y.form := by
    intro α g h1 h2
    rw [settle_form, hm.form]
    exact State.markedForm_field g h1 h2 y true
  have hown : y.ownTag = s.ownTag := (State.ownTag_congr hys).trans h0.ownTag
  have hcur : y.form.current = some tb := by rw [hyf]; rfl
  have hproc : y.form.procedure = some .steady := by rw [hyf]; rfl
  have hent : y.entries = tb.entries := by rw [State.entries, hcur]
  have hlat : (State.settle t0 (y.latchMark true)).timer.latched = some y.markFields := by
    rw [settle_timer, hm.timer]
  obtain ⟨u, v, pl, bb, oo, hmk, -⟩ := y.handedMark_eq true
  obtain ⟨f, hf, hf1, hf2, hf3, hf4⟩ := (y.handedMark true).takeChannels_cells
  have hpos : (y.handedMark true).ownPosition = positionOf tb.entries s.ownTag := by
    have hc : (y.handedMark true).form.current = some tb := by
      rw [hmk]
      exact (State.markedForm_field FormationUnit.current (fun _ => rfl) (fun _ _ => rfl) y true).trans hcur
    have ho : (y.handedMark true).ownTag = s.ownTag := by
      rw [hmk]
      exact hown
    rw [State.ownPosition, State.entries, hc, ho]
  have hcells : (State.settle t0 (y.latchMark true)).cells =
      (rekeyImage (s.cells.map ImageCell.raised) tb.entries).map f := by
    have h1 : (State.settle t0 (y.latchMark true)).cells = (y.handedMark true).takeChannels.cells := by
      rw [State.cells, settle_chan]
      exact (congrArg State.cells (y.latchMark_station true) :)
    rw [h1, hf, hmk, ← h0.cells, ← hyc]
    rfl
  refine ⟨_, hx, ?_, ?_, ?_, ?_, ?_, ?_, ?_, ?_, ?_, ?_, ?_, ?_, ?_⟩
  · rw [hkeep FormationUnit.node (fun _ => rfl) fun _ _ => rfl, hyf]
    exact h0.node.trans (node_of_leadStart hl)
  · exact (hkeep FormationUnit.current (fun _ => rfl) fun _ _ => rfl).trans hcur
  · rw [hkeep FormationUnit.pendingT (fun _ => rfl) fun _ _ => rfl, hyf]
    show keepTableAbove tb.epoch t0.form.pendingT = none
    rw [show t0.form.pendingT = some tb by rw [h0.form]; exact hpt]
    exact keepTableAbove_of_epoch rfl
  · exact (hkeep FormationUnit.procedure (fun _ => rfl) fun _ _ => rfl).trans hproc
  · rw [settle_pet, hpet]; exact hyi
  · rw [settle_pet, hpet]; exact hyj
  · rw [settle_planner, hm.inForce, hyp, h0.settings]
  · rw [hlat]
    show some ((y.form.current.map Table.epoch).getD 0) = _
    rw [hcur]
    rfl
  · rw [hlat]
    show some y.n = _
    rw [State.n, hent]
    rfl
  · rw [hlat]
    show some (y.form.procedure.getD .steady) = _
    rw [hproc]
    rfl
  · intro hnd q ch en d he ht hd carried
    have hep : en.position = q := by simpa using List.find?_some he
    have hne : q ≠ positionOf tb.entries s.ownTag := positionOf_ne hnd hh he ht
    have hcar : rekeyCell (s.cells.map ImageCell.raised) en ch = carried := by
      obtain ⟨h1, h2⟩ := rekeyCell_raised (img := s.cells) (en := en) (ch := ch)
      simp only [carried]
      split
      · next x hx => rw [h1 x hx, hep]
      · next hx => rw [h2 hx, hep]
    have hfix : ∀ c : ImageCell, c.position = some q → f c = c := fun c hc =>
      hf4 c (by rw [hpos, hc]; exact fun h => hne (Option.some.inj h))
    rw [hcells, cellAt_map (fun c => ⟨hf1 c, hf3 c⟩), cellAt_rekeyImage he hd, hcar, Option.map_some, hfix, suspend_eq]
    rw [(ImageCell.suspend_keeps _ _).1, ← hcar, (rekeyCell_of _ _ _).1, hep]
  · rw [hcells, List.filter_map]
    have hpred : ((fun x : ImageCell => x.position.isNone) ∘ f) = fun x => x.position.isNone := by
      funext c
      simp [hf1 c]
    have hsame : ((rekeyImage (s.cells.map ImageCell.raised) tb.entries).filter fun x => x.position.isNone).map f =
        (rekeyImage (s.cells.map ImageCell.raised) tb.entries).filter fun x => x.position.isNone := by
      refine (List.map_congr_left fun c hc => hf4 c ?_).trans (List.map_id _)
      have hnone : c.position = none := by simpa using (List.mem_filter.mp hc).2
      rw [hnone]
      exact nofun
    rw [hpred, hsame, rekeyImage_gone, List.filter_map, List.map_map]
    rfl
  · intro x hx q hxq
    rw [hcells] at hx
    obtain ⟨c, hc, rfl⟩ := List.mem_map.mp hx
    obtain ⟨en, hen, h1, h2, h3⟩ := mem_rekeyImage hc ((hf1 c).symm.trans hxq)
    exact ⟨en, hen, h1, by rw [hf2]; exact h2, by rw [hf3]; exact h3⟩

end Sys2Proof.Machine
end

section
/-! PROOFS. The cycle starts of a follower without a mark: flywheel, coasting, the entries into ORPHAN, SEEK and LEAD, and
the seek deadlines (R35 to R40, R42, R111, R116, R117, R144, R146, R156). -/

namespace Sys2Proof.Machine

open Sys2Proof

/-! ## Time -/

theorem State.advance_counter {s : State} (hp : s.powered = true) (hl : s.timer.lock ≠ .idle) (k : Nat) :
    (s.advance k).timer = { s.timer with counter := s.timer.counter + k } := by
  unfold State.advance
  rw [if_pos hp]
  exact if_neg hl

theorem followerRow_of {s : State} {row : FollowStart} {r : Nat} (hp : s.powered = true) (h : s.followStart = some row)
    (hr : s.timer.reference = some r) (due : State → Nat) (f : State → State) :
    followerRow s row due f = finish (s.advanceTo (due s)) (f (s.advanceTo (due s))) :=
  (whenPowered_of_powered hp _).trans (if_pos (by simp [h, hr]))

/-! ## The end of a cycle start (R60, R82, R121, R141) -/

/-- A plan made again reaches the planner and the states of the cells, and makes CHANGE notices (R82, R141, R158). -/
theorem State.replan_only (s : State) : ∃ p c o, s.replan = ({ s with planner := p, chan := c } : State).withOutbox o
    ∧ (c.image.map fun cs => cs.map ImageCell.receiveAge) = s.chan.image.map fun cs => cs.map ImageCell.receiveAge := by
  have keep : ∃ p c o, s = ({ s with planner := p, chan := c } : State).withOutbox o
      ∧ (c.image.map fun cs => cs.map ImageCell.receiveAge) = s.chan.image.map fun cs => cs.map ImageCell.receiveAge :=
    ⟨s.planner, s.chan, s.outbox, rfl, rfl⟩
  have suspends : ∀ x : State, x.chan = s.chan → x = { s with planner := x.planner } →
      ∃ p c o, x.applySuspension = ({ s with planner := p, chan := c } : State).withOutbox o
        ∧ (c.image.map fun cs => cs.map ImageCell.receiveAge) = s.chan.image.map fun cs => cs.map ImageCell.receiveAge := by
    intro x hc hx
    have maps : ∀ (img : List ImageCell) (f : ImageCell → ImageCell), x.chan.image = some img →
        (∀ c, (f c).receiveAge = c.receiveAge) →
        ∃ p c o, x.setImage (img.map f) = ({ s with planner := p, chan := c } : State).withOutbox o
          ∧ (c.image.map fun cs => cs.map ImageCell.receiveAge) =
            s.chan.image.map fun cs => cs.map ImageCell.receiveAge := by
      intro img f hi hf
      obtain ⟨o, h, -⟩ := x.setImage_only (img.map f)
      refine ⟨x.planner, { x.chan with image := some (img.map f) }, x.outbox ++ o, h.trans ?_, ?_⟩
      · rw [hx]
      · rw [← hc, hi]
        simp only [Option.map_some, List.map_map]
        exact congrArg some (List.map_congr_left fun c _ => hf c)
    unfold State.applySuspension
    split
    · exact ⟨x.planner, s.chan, s.outbox, hx, rfl⟩
    · next img hi =>
      refine maps img _ hi fun c => ?_
      split
      · split
        · unfold ImageCell.suspend
          repeat' split
          all_goals rfl
        · rfl
      · rfl
  unfold State.replan
  split
  · split
    · exact suspends _ rfl rfl
    · exact keep
  · exact keep

/-- A SYNCED member and an orphan install nothing late (R60). -/
theorem State.lateInstall_of {s : State} (h : s.synced = true ∨ s.form.node = .orphan) : s.lateInstall = s := by
  unfold State.lateInstall
  rcases h with h | h
  · have hn : s.form.node = .member := by
      unfold State.synced at h
      simp only [Bool.and_eq_true, beq_iff_eq] at h
      exact h.1.1
    rw [hn]
    cases completeTable s.form.asmCurrent with
    | none => rfl
    | some t => exact if_neg (by rw [h]; exact Bool.false_ne_true)
  · rw [h]

theorem State.applicantStart_of {s : State} (h : s.form.node ≠ .applicant) : s.applicantStart = s := if_neg h

/-- The roll slot start taken over in a cycle in which nothing is sent (R28, R35). -/
theorem State.correct_silent {s : State} (hl : s.leading = false) (hk : s.timer.kind ≠ .marked) : s.correct =
    { s with timer := { s.timer with
      nextSlot := if 40 ≤ s.timer.counter && s.timer.nextSlot = 0 then 1 else s.timer.nextSlot } } := by
  unfold State.correct
  split
  · unfold State.startCell State.cell
    exact (if_neg (by show ¬ s.leading = true; rw [hl]; exact Bool.false_ne_true)).trans (if_pos hk)
  · rfl

/-- What follows a cycle start without a mark, of a SYNCED member or an orphan (R35, R82, R156). -/
theorem State.cycleEnd {s : State} (h : s.synced = true ∧ s.form.node = .member ∨ s.form.node = .orphan)
    (hk : s.timer.kind ≠ .marked) : ∃ p c o, s.lateInstall.settleCycle.correct =
      ({ s with
        planner := p, chan := c
        timer := { s.timer with
          nextSlot := if 40 ≤ s.timer.counter && s.timer.nextSlot = 0 then 1 else s.timer.nextSlot } } : State).withOutbox o
      ∧ (c.image.map fun cs => cs.map ImageCell.receiveAge) = s.chan.image.map fun cs => cs.map ImageCell.receiveAge := by
  obtain ⟨p, c, o, hr, hc⟩ := s.replan_only
  have hn : s.form.node = .member ∨ s.form.node = .orphan := h.imp And.right id
  have happ : s.form.node ≠ .applicant := by rcases hn with hn | hn <;> rw [hn] <;> decide
  let x : State := ({ s with planner := p, chan := c } : State).withOutbox o
  have hlead : x.leading = false := by
    show (s.form.node == .lead && _) = false
    rcases hn with hn | hn <;> rw [hn] <;> rfl
  refine ⟨p, c, o, ?_, hc⟩
  rw [State.lateInstall_of (h.imp And.left id), State.settleCycle, hr, State.applicantStart_of (s := x) happ,
    State.correct_silent (s := x) hlead hk]
  rfl

/-- Receive ages at a cycle start (R156). -/
theorem State.turnCycle_ages (s : State) : (s.turnCycle.chan.image.map fun cs => cs.map ImageCell.receiveAge) =
    s.chan.image.map fun cs => cs.map fun x => min 255 (x.receiveAge + 1) := by
  show (s.chan.image.map _).map _ = _
  rw [Option.map_map]
  congr 1
  funext cs
  exact List.map_map

theorem node_of_synced {s : State} (h : s.synced = true) : s.form.node = .member := by
  unfold State.synced at h
  simp only [Bool.and_eq_true, beq_iff_eq] at h
  exact h.1.1

/-! ## Flywheel and coasting starts (R35, R37, R40) -/

/-- A flywheel start of a SYNCED member (R37). -/
theorem State.flywheelStart_eq {s : State} (h : s.synced = true) : ∃ p c o, s.flywheelStart =
    ({ s with
      planner := p, chan := c
      form := { s.form with yieldRecord := s.form.yieldRecord.map YieldRecord.pass }
      timer := { s.timer.flywheel s.tolerance with
        nextSlot := if 40 ≤ 4 * s.timer.refHop + s.tolerance then 1 else 0 } } : State).withOutbox o
    ∧ (c.image.map fun cs => cs.map ImageCell.receiveAge) =
        s.chan.image.map fun cs => cs.map fun x => min 255 (x.receiveAge + 1) := by
  have hn := node_of_synced h
  let s1 : State := { s with
    timer := s.timer.flywheel s.tolerance
    form := { s.form with yieldRecord := s.form.yieldRecord.map YieldRecord.pass } }
  have hs1 : s.flywheelStart = s1.turnCycle.lateInstall.settleCycle.correct := by
    have hlost : (decide (3 ≤ (s.timer.flywheel s.tolerance).missed) &&
        (decide (s.form.node = .applicant) || decide (s.form.node = .seek))) = false := by
      rw [hn]
      exact Bool.and_false _
    unfold State.flywheelStart
    dsimp only
    rw [hlost]
    rfl
  obtain ⟨p, c, o, he, hc⟩ := State.cycleEnd (s := s1.turnCycle) (.inl ⟨h, hn⟩) (by show CycleKind.flywheel ≠ _; decide)
  refine ⟨p, c, o, ?_, hc.trans s1.turnCycle_ages⟩
  rw [hs1, he]
  show ({ s1.turnCycle with planner := p, chan := c, timer := _ } : State).withOutbox o = _
  have hns : (if 40 ≤ s1.turnCycle.timer.counter && s1.turnCycle.timer.nextSlot = 0 then 1 else
      s1.turnCycle.timer.nextSlot) = if 40 ≤ 4 * s.timer.refHop + s.tolerance then 1 else 0 := by
    show (if decide (40 ≤ 4 * s.timer.refHop + s.tolerance) && decide (0 = 0) then 1 else 0) = _
    simp
  rw [hns]
  rfl

/-- A coasting start of an orphan (R40). -/
theorem State.coast_eq {s : State} (h : s.form.node = .orphan) : ∃ p c o, s.coast =
    ({ s with
      planner := p, chan := c
      timer := { s.timer.coast with nextSlot := if 40 ≤ 4 * s.timer.refHop then 1 else 0 } } : State).withOutbox o
    ∧ (c.image.map fun cs => cs.map ImageCell.receiveAge) =
        s.chan.image.map fun cs => cs.map fun x => min 255 (x.receiveAge + 1) := by
  let s1 : State := { s with timer := s.timer.coast }
  obtain ⟨p, c, o, he, hc⟩ := State.cycleEnd (s := s1.turnCycle) (.inr h) (by show CycleKind.flywheel ≠ _; decide)
  refine ⟨p, c, o, ?_, hc.trans s1.turnCycle_ages⟩
  have hs1 : s.coast = s1.turnCycle.lateInstall.settleCycle.correct := rfl
  rw [hs1, he]
  have hns : (if 40 ≤ s1.turnCycle.timer.counter && s1.turnCycle.timer.nextSlot = 0 then 1 else
      s1.turnCycle.timer.nextSlot) = if 40 ≤ 4 * s.timer.refHop then 1 else 0 := by
    show (if decide (40 ≤ 4 * s.timer.refHop) && decide (0 = 0) then 1 else 0) = _
    simp
  rw [hns]
  rfl

theorem windowClose_eq {s : State} {r p : Nat} (hr : s.timer.reference = some r) (hp : s.timer.period = some p) :
    s.windowClose = r + p + s.settings.tolerance := by
  rw [State.windowClose, State.period, hr, hp]
  rfl

theorem coastDue_eq {s : State} {r p : Nat} (hr : s.timer.reference = some r) (hp : s.timer.period = some p) :
    s.coastDue = r + p := by
  rw [State.coastDue, State.period, hr, hp]
  rfl

/-- Settles O56. -/
theorem followerStartsWithoutMark : Obligations.FollowerStartsWithoutMark := by
  refine ⟨fun s r p hp hs hf hr hper hnow => ?_, fun s r p hp hn hf hr hper => ?_, fun s hp hl hr => ?_⟩
  · let t0 := s.advanceTo s.windowClose
    have h0 : Passed s t0 := s.advanceTo_passed _
    have htol : t0.tolerance = s.settings.tolerance := by rw [State.tolerance, h0.settings]
    obtain ⟨pl, c, o, he, hc⟩ := State.flywheelStart_eq (s := t0) (h0.synced.trans hs)
    have hx : exec .flywheelStart s = finish t0 t0.flywheelStart := by
      rw [exec_flywheelStart, execFlywheelStart, followerRow_of hp hf hr]
    have ht : (State.settle t0 t0.flywheelStart).timer = { t0.timer.flywheel s.settings.tolerance with
        nextSlot := if 40 ≤ 4 * s.timer.refHop + s.settings.tolerance then 1 else 0 } := by
      rw [settle_timer, he, htol]
      show ({ t0.timer.flywheel s.settings.tolerance with
        nextSlot := if 40 ≤ 4 * t0.timer.refHop + s.settings.tolerance then 1 else 0 } : CycleTimer) = _
      rw [show t0.timer.refHop = s.timer.refHop by rw [h0.timer]]
    have hround : t0.timer.nextCycle.round =
        if (s.timer.index + 1) % 4 = 0 then s.timer.round + 1 else s.timer.round := by
      rw [h0.timer]
      rfl
    rw [h0.timer] at ht
    refine ⟨_, hx, ?_, ?_, ?_, ?_, ?_, ?_, ?_, ?_, ?_, ?_⟩
    · rw [settle_now, he]
      show t0.now = _
      rw [State.advanceTo_now hnow, windowClose_eq hr hper]
    · rw [ht]; rfl
    · rw [ht]; rfl
    · rw [ht]; rfl
    · rw [ht]
      simp [CycleTimer.flywheel, hr, hper]
    · rw [ht]; rfl
    · rw [ht]; rfl
    · rw [ht]
      simp [CycleTimer.flywheel, CycleTimer.nextCycle, hr, hper]
    · rw [ht]; rfl
    · rw [settle_chan, he]
      refine hc.trans ?_
      rw [h0.chan]
  · let t0 := s.advanceTo s.coastDue
    have h0 : Passed s t0 := s.advanceTo_passed _
    obtain ⟨pl, c, o, he, hc⟩ := State.coast_eq (s := t0) (h0.node.trans hn)
    have hx : exec .coastingStart s = finish t0 t0.coast := by
      rw [exec_coastingStart, execCoastingStart, followerRow_of hp hf hr]
    have hlock : s.timer.lock = .acquiring := by
      unfold State.followStart at hf
      rw [hn] at hf
      cases hl : s.timer.lock <;> rw [hl] at hf <;> first | rfl | cases hf
    have ht : (State.settle t0 t0.coast).timer = { t0.timer.coast with
        nextSlot := if 40 ≤ 4 * s.timer.refHop then 1 else 0 } := by
      rw [settle_timer, he]
      show ({ t0.timer.coast with nextSlot := if 40 ≤ 4 * t0.timer.refHop then 1 else 0 } : CycleTimer) = _
      rw [show t0.timer.refHop = s.timer.refHop by rw [h0.timer]]
    rw [h0.timer] at ht
    refine ⟨_, hx, ?_, ?_, ?_, ?_, ?_, ?_, ?_, ?_, fun hnow => ?_, ?_⟩
    · rw [settle_form, he]; exact h0.node.trans hn
    · rw [ht]; exact hlock
    · rw [ht]; rfl
    · rw [ht]; rfl
    · rw [ht]
      simp [CycleTimer.coast, hr, hper]
    · rw [ht]; rfl
    · rw [ht]; rfl
    · rw [ht]
      simp [CycleTimer.coast, CycleTimer.nextCycle, hr, hper]
    · rw [settle_now, he]
      show t0.now = _
      rw [State.advanceTo_now (by rw [coastDue_eq hr hper]; exact hnow), coastDue_eq hr hper]
    · rw [settle_chan, he]
      refine hc.trans ?_
      rw [h0.chan]
  · let t0 := s.advanceTo s.windowOpen
    have h0 : Passed s t0 := s.advanceTo_passed _
    have hx : exec .windowOpens s = finish t0 { t0 with timer := { t0.timer with earlyHold := false } } := by
      rw [exec_windowOpens, execWindowOpens, whenPowered_of_powered hp]
      exact if_pos (by
        rw [Option.isSome_iff_ne_none.mpr hr]
        rcases hl with hl | hl <;> rw [hl] <;> rfl)
    have ht : t0.timer = { s.timer with counter := s.timer.counter + (s.windowOpen - s.now) } :=
      State.advance_counter hp (by rcases hl with hl | hl <;> rw [hl] <;> decide) _
    refine ⟨_, hx, ?_, ?_, ?_, ?_, ?_, ?_, ?_, ?_⟩
    · rw [settle_timer]
    · rw [settle_timer]; exact (congrArg CycleTimer.early ht :)
    · rw [settle_timer]; exact (congrArg CycleTimer.earlySeen ht :)
    · rw [settle_timer]; exact (congrArg CycleTimer.lock ht :)
    · rw [settle_timer]; exact (congrArg CycleTimer.index ht :)
    · rw [settle_timer]
      show ({ t0.timer with earlyHold := false } : CycleTimer) = _
      rw [ht]
    · rw [settle_pet]; exact h0.queue
    · rw [settle_form]; exact h0.current

end Sys2Proof.Machine
end

section
/-! PROOFS. Orphans and the leaders that come of them, seeking parts and their deadlines (R39, R42, R111, R113, R116, R117,
R144, R146). -/

namespace Sys2Proof.Machine

open Sys2Proof

/-! ## Followers' rows -/

/-- A part without a led mark due that starts a row of a SYNCED member is a member. -/
theorem node_of_followStart {s : State} {row : FollowStart} (h : s.followStart = some row) :
    (row = .orphanEntry → s.form.node = .member) ∧ (row = .yieldSeek → s.form.node = .member)
      ∧ (row = .succession → s.form.node = .orphan) := by
  unfold State.followStart at h
  refine ⟨?_, ?_, ?_⟩ <;> rintro rfl <;> repeat' split at h
  all_goals first
    | assumption
    | cases h

theorem State.upstream_congr {s t : State} (hs : t.form.steering = s.form.steering) (hf : t.timer.followed = s.timer.followed)
    (hc : t.form.current = s.form.current) (ht : t.form.node ≠ .lead) (hn : s.form.node ≠ .lead) :
    t.upstream = s.upstream := by
  have he : t.entries = s.entries := by rw [State.entries, State.entries, hc]
  unfold State.upstream
  rw [hs, hf]
  cases s.form.steering with
  | none => rfl
  | some st =>
    cases s.timer.followed with
    | none => rfl
    | some f =>
      dsimp only
      rw [if_neg ht, if_neg hn, he]

/-! ## ORPHAN and the remnant (R39, R144) -/

theorem State.restDetection_withEnds (b s : State) : ∃ u v, State.restDetection b s = s.withEnds u v :=
  (s.mapEnd .e1 _).mapEnd_withEnds .e2 _

/-- The entry of a SYNCED member into ORPHAN, before the fast path's mark is asked for (R39, R42). -/
theorem State.enterOrphan_eq {s : State} (h : s.synced = true) : ∃ x : State,
    (s.form.fastPath = none → s.enterOrphan = x) ∧ (∀ cap, s.form.fastPath = some cap → s.enterOrphan = x.fastLead cap)
    ∧ x.form = { s.form with node := .orphan, yieldRecord := s.form.yieldRecord.map YieldRecord.pass }
    ∧ x.pet = { s.pet with queue := s.pet.queue.map Want.rewind } ∧ x.store = s.store
    ∧ x.timer.lock = .acquiring ∧ x.timer.followed = s.timer.followed := by
  obtain ⟨p, c, o, he, -⟩ := State.flywheelStart_eq h
  let s1 := s.flywheelStart
  let s2 : State := { s1 with timer := { s1.timer with lock := .acquiring, early := 0 }, form := { s1.form with node := .orphan } }
  obtain ⟨u, v, hr⟩ := State.restDetection_withEnds s1 s2
  let x := (s2.withEnds u v).rewindWants
  have hn : s1.form.node = .member := by
    simp only [s1]
    rw [he]
    exact node_of_synced h
  have hfast : x.form.fastPath = s.form.fastPath := by
    simp only [x, s2, s1]
    rw [he]
    rfl
  have hx : (State.restDetection s1 s2).rewindWants = x := by rw [hr]
  refine ⟨x, fun hf => ?_, fun cap hf => ?_, ?_, ?_, ?_, rfl, ?_⟩
  · refine (if_pos hn).trans ?_
    dsimp only
    rw [show (State.restDetection _ _).rewindWants = x from hx, hfast, hf]
  · refine (if_pos hn).trans ?_
    dsimp only
    rw [show (State.restDetection _ _).rewindWants = x from hx, hfast, hf]
  all_goals
    simp only [x, s2, s1]
    rw [he]
  · rfl
  · rfl
  · rfl
  · rfl

/-- The fast path's led table, by the upstream end (R144). -/
theorem State.fastLead_led (s : State) (cap : Capture) : (s.fastLead cap).form.node = .lead
    ∧ (s.fastLead cap).form.fastPath = none
    ∧ (s.fastLead cap).form.led.map (fun l => l.table) =
      some { epoch := s.successorEpoch, entries := grantKept s.settings.period s.ownTag s.remnantEntries } := by
  unfold State.fastLead
  dsimp only
  obtain ⟨h1, h2, h3, -⟩ := s.enterLead_form _ s.timer.latched
  exact ⟨h1, h3, by rw [h2]; rfl⟩

/-- Settles O57. -/
theorem orphansAndTheirLeaders : Obligations.OrphansAndTheirLeaders := by
  refine ⟨fun s hp hf hr hs => ?_, fun s l ep hp hf hr hfo hh hpos => ?_⟩
  · obtain ⟨r, hr⟩ := Option.ne_none_iff_exists'.mp hr
    let t0 := s.advanceTo s.windowClose
    have h0 : Passed s t0 := s.advanceTo_passed _
    have hx : exec .orphanEntry s = finish t0 t0.enterOrphan := by
      rw [exec_orphanEntry, execOrphanEntry, followerRow_of hp hf hr]
    obtain ⟨x, hnone, hsome, hxf, hxp, hxs, hxl, hxt⟩ := State.enterOrphan_eq (s := t0) (h0.synced.trans hs)
    have hfast : t0.form.fastPath = s.form.fastPath := by rw [h0.form]
    have hfol : x.timer.followed = s.timer.followed := hxt.trans h0.followed
    have hcur : x.form.current = s.form.current := by rw [hxf]; exact h0.current
    have hste : x.form.steering = s.form.steering := by rw [hxf]; exact h0.steering
    have hent : x.entries = s.entries := by rw [State.entries, State.entries, hcur]
    have hown : x.ownTag = s.ownTag := State.ownTag_congr (hxs.trans h0.store)
    have hset : x.settings = s.settings := by rw [State.settings, State.settings, hxs, h0.store]
    have hup : x.upstream = s.upstream := State.upstream_congr hste hfol hcur (by rw [hxf]; show NodeState.orphan ≠ .lead; decide)
      (by rw [node_of_synced hs]; decide)
    have hside : ∀ e, x.sideOf e = s.sideOf e := fun e => by rw [State.sideOf, State.sideOf, hste]
    have hop : x.ownPosition = s.ownPosition := by rw [State.ownPosition, State.ownPosition, hent, hown]
    refine ⟨fun hfp => ⟨_, hx.trans (congrArg (finish t0) (hnone (hfast.trans hfp))), ?_, ?_, ?_, ?_⟩,
      fun cap ep hfp hep => ?_⟩
    · rw [settle_form, hxf]
    · rw [settle_timer, hxl]
    · rw [settle_form]; exact hcur
    · rw [settle_pet, hxp]
      show t0.pet.queue.map _ = _
      rw [h0.queue]
    · obtain ⟨h1, h2, h3⟩ := x.fastLead_led cap
      have hse : x.successorEpoch = ep + 1 := State.successorEpoch_of_followed (by rw [hfol]; exact hep)
      have hleads : ∀ run, x.remnantEntries = run → (State.settle t0 (x.fastLead cap)).form.led.map
          (fun l => l.table.entries) = some (grantKept s.settings.period s.ownTag run) := by
        intro run hrun
        rw [settle_form]
        have := congrArg (Option.map Table.entries) h3
        rw [Option.map_map] at this
        refine this.trans ?_
        rw [hrun, hset, hown]
        rfl
      refine ⟨_, hx.trans (congrArg (finish t0) (hsome cap (hfast.trans hfp))), ?_, ?_, ?_, fun e hu hsd => hleads _ ?_,
        fun e hu hsd => hleads _ ?_, fun hu => hleads _ ?_⟩
      · rw [settle_form]; exact h1
      · rw [settle_form]; exact h2
      · rw [settle_form]
        have := congrArg (Option.map Table.epoch) h3
        rw [Option.map_map] at this
        refine this.trans ?_
        rw [hse]
        rfl
      · rw [State.remnantEntries, hup, hu]
        dsimp only
        rw [hside, hsd, if_pos rfl, State.n, hent, hop]
        rfl
      · rw [State.remnantEntries, hup, hu]
        dsimp only
        rw [hside, hsd, if_neg (by decide), hent, hop]
      · rw [State.remnantEntries, hup, hu]
        dsimp only
        rw [State.n, hent, hop]
        rfl
  · obtain ⟨r, hr⟩ := Option.ne_none_iff_exists'.mp hr
    let t0 := s.advanceTo s.coastDue
    have h0 : Passed s t0 := s.advanceTo_passed _
    have hx : exec .succession s = finish t0 t0.takeSuccession := by
      rw [exec_succession, execSuccession, followerRow_of hp hf hr]
    obtain ⟨p, c, o, he, -⟩ := State.coast_eq (s := t0) (h0.node.trans ((node_of_followStart hf).2.2 rfl))
    let x := t0.coast
    have hfol : x.timer.followed = some (l, ep) := by
      simp only [x]
      rw [he]
      exact h0.followed.trans hfo
    have hent : x.entries = s.entries := by
      simp only [x]
      rw [he]
      exact h0.entries
    have hown : x.ownTag = s.ownTag := by
      simp only [x]
      rw [he]
      exact h0.ownTag
    have hset : x.settings = s.settings := by
      simp only [x]
      rw [he]
      exact h0.settings
    let led : Led := { table := Table.mk (ep + 1) (grantKept s.settings.period s.ownTag
      (removePosition s.entries (positionOf s.entries l))), by_ := .succession }
    have hlead : t0.takeSuccession = x.enterLead led x.timer.latched := by
      have hse : x.successorEpoch = ep + 1 := State.successorEpoch_of_followed (by rw [hfol]; rfl)
      unfold State.takeSuccession
      dsimp only
      rw [show t0.coast.timer.followed = some (l, ep) from hfol]
      dsimp only
      rw [show t0.coast.entries = s.entries from hent, if_neg hpos, show t0.coast.successorEpoch = ep + 1 from hse,
        show t0.coast.settings = s.settings from hset, show t0.coast.ownTag = s.ownTag from hown]
    obtain ⟨h1, h2, -⟩ := x.enterLead_form led x.timer.latched
    refine ⟨_, led, hx.trans (congrArg (finish t0) hlead), ?_, ?_, rfl, rfl⟩
    · rw [settle_form]; exact h1
    · rw [settle_form]; exact h2

/-! ## SEEK (R111, R113) -/

/-- Settles O58. -/
theorem yieldRecordLeadsToSeek : Obligations.YieldRecordLeadsToSeek := by
  intro s y f r p hp hf hs hy hfo hr hper
  let t0 := s.advanceTo s.windowClose
  have h0 : Passed s t0 := s.advanceTo_passed _
  have hx : exec .yieldSeekEntry s = finish t0 t0.yieldMember := by
    rw [exec_yieldSeekEntry, execYieldSeekEntry, followerRow_of hp hf hr]
  obtain ⟨pl, c, o, he, -⟩ := State.flywheelStart_eq (s := t0) (h0.synced.trans hs)
  have hy0 : t0.form.yieldRecord = some y := by rw [h0.form]; exact hy
  have hn : t0.form.node = .member := h0.node.trans (node_of_synced hs)
  have href : t0.timer.reference = some r := by rw [h0.timer]; exact hr
  have hper0 : t0.timer.period = some p := by rw [h0.timer]; exact hper
  have hm : ∃ x : State, t0.yieldMember = ({ x with
      timer := { x.timer with lock := .acquiring, early := 0, missed := 1 }
      form := { x.form with
        node := .seek, yieldRecord := none, fastPath := none
        seek := some { principal := y.principal, jointEnd := t0.jointEnd, locked := false, lockEnd := none, oldLeader := f.1,
                       oldEpoch := f.2, oldPeriod := p, formerLead := false, deadline := r + p + 64 * p,
                       awaitCurrent := false, lastOwnMark := none } } } : State).rewindWants := by
    refine ⟨t0.flywheelStart, ?_⟩
    unfold State.yieldMember
    rw [hy0, show t0.timer.followed = some (f.1, f.2) from h0.followed.trans hfo]
    dsimp only
    have hfn : t0.flywheelStart.form.node = .member := by rw [he]; exact hn
    have hfr : t0.flywheelStart.timer.reference = some (r + p) := by
      rw [he]
      show t0.timer.reference.map (fun r => r + t0.timer.period.getD 0) = _
      rw [href, hper0]
      rfl
    rw [if_pos hfn, hfr, State.period, hper0]
    rfl
  obtain ⟨x, hm⟩ := hm
  refine ⟨_, _, hx.trans (congrArg (finish t0) hm), ?_, by rw [settle_form]; rfl, rfl, rfl, rfl, rfl, rfl, rfl, ?_, ?_, ?_⟩
  · rw [settle_form]; rfl
  · rw [settle_timer]; rfl
  · rw [settle_timer]; rfl
  · rw [settle_form]; rfl

/-! ## The seek deadlines (R116, R117) -/

theorem State.segregateJoint_interior (s : State) (k : SeekRecord) : (s.segregateJoint k).interior = s.interior := by
  unfold State.segregateJoint
  split
  · exact State.mapEnd_interior _ _ _
  · rfl

theorem State.segregateJoint_segregated (s : State) (k : SeekRecord) {e : EndId} (h : k.jointEnd = some e) :
    ((s.segregateJoint k).endUnit e).segregated = true := by
  unfold State.segregateJoint
  rw [h]
  dsimp only
  rw [State.endUnit_mapEnd]
  rfl

/-- Settles O59. -/
theorem seekDeadlinesResume : Obligations.SeekDeadlinesResume := by
  intro s k hp hn hk
  let t0 := s.advanceTo k.deadline
  have h0 : Passed s t0 := s.advanceTo_passed _
  refine ⟨fun hl => ?_, fun hl => ?_⟩
  · let led : Led := { table := { epoch := k.oldEpoch + 1, entries := grantKept t0.settings.period t0.ownTag t0.entries },
                       by_ := .resume }
    let x := t0.enterLead led k.lastOwnMark
    have hx : exec .seekDeadlineResume s = finish t0 (t0.resumeLead k) := by
      rw [exec_seekDeadlineResume, execSeekDeadlineResume, whenPowered_of_powered hp, hk]
      exact if_pos (by simp [hn, hl])
    have hform : (t0.resumeLead k).form = x.steady.form :=
      (congrArg State.form (x.steady.segregateJoint_interior k) :)
    obtain ⟨h1, h2, -, h4, -⟩ := t0.enterLead_form led k.lastOwnMark
    refine ⟨_, led, hx, ?_, ?_, rfl, rfl, ?_, ?_, ?_, ?_, ?_, fun e he => ?_⟩
    · rw [settle_form, hform]; exact h1
    · rw [settle_form, hform]; exact h2
    · show grantKept t0.settings.period t0.ownTag t0.entries = _
      rw [h0.settings, h0.ownTag, h0.entries]
    · rw [settle_form, hform]; exact h4
    · rw [settle_form, hform]; rfl
    · rw [settle_form, hform]; rfl
    · rw [settle_form, hform]; rfl
    · rw [settle_segregated]
      exact x.steady.segregateJoint_segregated k he
  · let x : State := ({ t0 with
      timer := { t0.timer with
        lock := .acquiring, followed := some (k.oldLeader, k.oldEpoch), reference := some t0.now, missed := 0,
        early := 0, earlyHold := false, earlySeen := false }
      form := { t0.form with node := .orphan, seek := none } } : State).rewindWants
    have hx : exec .seekDeadlineOrphan s = finish t0 ((x.segregateJoint k).resumed k) := by
      rw [exec_seekDeadlineOrphan, execSeekDeadlineOrphan, whenPowered_of_powered hp, hk]
      exact if_pos (by simp [hn, hl])
    have hform : ((x.segregateJoint k).resumed k).form = x.form := (congrArg State.form (x.segregateJoint_interior k) :)
    have htimer : ((x.segregateJoint k).resumed k).timer = x.timer := (congrArg State.timer (x.segregateJoint_interior k) :)
    refine ⟨_, hx, ?_, ?_, ?_, ?_, ?_, ?_, fun e he => ?_⟩
    · rw [settle_form, hform]; rfl
    · rw [settle_timer, htimer]; rfl
    · rw [settle_timer, htimer]; rfl
    · rw [settle_timer, htimer]; rfl
    · rw [settle_form, hform]; rfl
    · rw [settle_form, hform]; exact h0.current
    · rw [settle_segregated]
      exact x.segregateJoint_segregated k he

end Sys2Proof.Machine
end

section
/-! PROOFS. The leader's items: a silent car's DROPOUT placed, and each kind of item started in STEADY (R62, R92, R94, R95,
R102 to R104, R125, R131, R142, R147). -/

namespace Sys2Proof.Machine

open Sys2Proof

/-! ## Placing and starting -/

theorem WorkItem.sameKey_dropout (t : Tag) (it : WorkItem) : (WorkItem.dropout t).sameKey it = true ↔ it = .dropout t := by
  cases it with
  | dropout t' =>
    simp only [WorkItem.sameKey, beq_iff_eq, WorkItem.dropout.injEq]
    exact eq_comm
  | join _ _ _ => simp [WorkItem.sameKey]
  | brk _ _ _ _ _ => simp [WorkItem.sameKey]
  | split _ _ _ _ => simp [WorkItem.sameKey]
  | enroll _ _ _ => simp [WorkItem.sameKey]

/-- A DROPOUT that does not wait yet goes ahead of the items that are not urgent (R94). -/
theorem placeItem_dropout {t : Tag} {work : List WorkItem} (hl : work.length < 8) (hn : ∀ it ∈ work, it ≠ .dropout t) :
    placeItem (.dropout t) work = some (insertUrgent (.dropout t) work) := by
  have hany : work.any (WorkItem.dropout t).sameKey = false := by
    rw [List.any_eq_false]
    exact fun it hit h => hn it hit ((WorkItem.sameKey_dropout t it).mp h)
  have hf : ¬ Config.workSize ≤ work.length := Nat.not_le.mpr hl
  unfold placeItem
  rw [if_neg (by rw [hany]; exact Bool.false_ne_true), if_neg hf]
  rfl

/-- The leader's state as the head item is taken off the list (R93). -/
def State.itemTaken (s : State) (it : WorkItem) (w : List WorkItem) : State :=
  { s with pet := { s.pet with work := w, joins := assembliesWithout it s.pet.joins } }

theorem node_of_leading {s : State} (h : s.leading = true) : s.form.node = .lead := by
  unfold State.leading at h
  simp only [Bool.and_eq_true, beq_iff_eq] at h
  exact h.1

/-- An item at the head, with none in progress, is carried out in STEADY where its subject is there (R95). -/
theorem workItemStart_of {s : State} {it : WorkItem} {w : List WorkItem} (h : ItemStarts s it w)
    (hsub : (s.itemTaken it w).subjectPresent it = true) :
    exec .workItemStart s = finish s ((s.itemTaken it w).carryOut it) := by
  obtain ⟨hp, hn, hi, hd, hs, hw⟩ := h
  have hm : s.mayStart = some it := by
    unfold State.mayStart
    rw [hw, hi, hs, hd]
    exact if_pos (by simp [hn])
  rw [exec_workItemStart, execWorkItemStart, whenPowered_of_powered hp, hm]
  refine congrArg (finish s) ?_
  unfold State.startItem
  rw [hi, hw]
  exact if_pos hsub

/-- While a mark with STEADY is owed, no item starts (R133, R135). -/
theorem workItemStart_owed {s : State} (hp : s.powered = true) (hd : s.pet.deferred = true) (hi : s.pet.inProgress = none) :
    exec .workItemStart s = .next s := by
  have hm : s.mayStart = none := by
    unfold State.mayStart
    rw [hi, hd]
    cases s.pet.work with
    | nil => rfl
    | cons it w => exact if_neg (by simp)
  rw [exec_workItemStart, execWorkItemStart, whenPowered_of_powered hp, hm]

/-- A table announced by an item begun (R57, R142, R147). -/
theorem announced_told {b s : State} (it : WorkItem) (ens : List Entry) :
    let t := State.settle b ((s.begin it).announce ens)
    t.pet.work = s.pet.work ∧ t.pet.inProgress = some it ∧ t.form.procedure = some .announce
      ∧ t.form.current = s.form.current ∧ t.form.pendingT = some (Table.mk s.nextEpoch ens) := by
  refine ⟨?_, ?_, ?_, ?_, ?_⟩
  · rw [settle_pet]; rfl
  · rw [settle_pet]; rfl
  · rw [settle_form]; rfl
  · rw [settle_form]; rfl
  · rw [settle_form]; rfl

/-! ## Joins judged (R102) -/

/-- The formation with more cars, or of as many the one whose leader has the lower tag, is the principal (R102). -/
theorem State.isPrincipal_iff (s : State) (h : JoinHeader) :
    s.isPrincipal h = true ↔ h.size < s.n ∨ s.n = h.size ∧ s.ownTag < h.leader := by
  simp [State.isPrincipal]

theorem tagsMeet_iff (a b : List Entry) : tagsMeet a b = true ↔ ∃ en ∈ a, holdsTag b en.tag = true := by
  simp [tagsMeet]

/-- A join refused is answered so, and no more (R103). -/
theorem State.decideJoin_refused {s : State} {t : Tag} {e : EndId} {r : ForeignReport} {why : Reason} (hr : RoomFor s t)
    (h : s.joinRefusal r (if s.isPrincipal r.header then s.settings.period else r.header.period) = some why) :
    s.decideJoin t e r = s.pushAnswer (answerTo t .joinSeen (some e) .joinRefused (some why)) := by
  unfold State.decideJoin
  dsimp only
  rw [h]
  exact State.answer_push (by rw [answerTo_isOwn]; exact beq_eq_false_iff_ne.mpr hr.1) hr.2

/-- A join begun, with the role of the own formation (R104, R109). -/
theorem State.decideJoin_begun {s : State} {t : Tag} {e : EndId} {r : ForeignReport} (hr : RoomFor s t)
    (h : s.joinRefusal r (if s.isPrincipal r.header then s.settings.period else r.header.period) = none) :
    let j : JoinProgress :=
      { role := if s.isPrincipal r.header then .principal else .absorbed, reporter := t, reporterEnd := e, report := r,
        phase := if s.isPrincipal r.header then .admitting else .awaitReady, wait := 0, foreignHolder := none }
    let x : State := { s with pet := { s.pet with inProgress := some (.join t e r), join := some j } }
    (s.isPrincipal r.header = true → s.decideJoin t e r =
      ({ x with form := { x.form with procedure := some .admitting, otherTag := some r.header.leader } } : State).pushAnswer
        (answerTo t .joinSeen (some e) .joinPrincipal none))
    ∧ (s.isPrincipal r.header = false → s.decideJoin t e r =
      x.pushAnswer (answerTo t .joinSeen (some e) .joinAbsorbed none)) := by
  intro j x
  have push : ∀ (y : State) (o : AnswerOutcome), y.store = s.store → y.pet.answers = s.pet.answers →
      y.answer (answerTo t .joinSeen (some e) o none) = y.pushAnswer (answerTo t .joinSeen (some e) o none) := by
    intro y o hs ha
    refine State.answer_push ?_ (by rw [ha]; exact hr.2)
    rw [answerTo_isOwn, State.ownTag_congr hs]
    exact beq_eq_false_iff_ne.mpr hr.1
  refine ⟨fun hp => ?_, fun hp => ?_⟩
  · unfold State.decideJoin
    dsimp only
    rw [h]
    dsimp only
    rw [if_pos hp]
    exact push _ _ rfl rfl
  · unfold State.decideJoin
    dsimp only
    rw [h]
    dsimp only
    rw [if_neg (by rw [hp]; exact Bool.false_ne_true)]
    exact push _ _ rfl rfl

/-! ## Enrolments judged (R125) -/

theorem State.answer_applicant {s : State} (t : Tag) (o : AnswerOutcome) (why : Option Reason)
    (h : s.pet.answers.length < 16) : s.answer (answerApplicant t o why) = s.pushAnswer (answerApplicant t o why) :=
  State.answer_push (Bool.and_false _) h

theorem State.startEnroll_eq {s : State} (it : WorkItem) (t : Tag) (en : Entry) (pl : TagPlace)
    (h : s.pet.answers.length < 16) :
    (pl.point s.entries = none → s.startEnroll it t en pl = s.pushAnswer (answerApplicant t .stale none))
    ∧ (∀ a why, pl.point s.entries = some a → s.enrollRefusal en = some why →
        s.startEnroll it t en pl = s.pushAnswer (answerApplicant t .refused (some why)))
    ∧ (∀ a, pl.point s.entries = some a → s.enrollRefusal en = none → s.startEnroll it t en pl =
        ((s.begin it).announce (grantRates s.settings.period (insertEntry s.entries a en))).pushAnswer
          (answerApplicant t .accepted none)) := by
  unfold State.startEnroll
  refine ⟨fun hp => ?_, fun a why hp hr => ?_, fun a hp hr => ?_⟩
  · rw [hp]
    exact State.answer_applicant t _ _ h
  · rw [hp]
    dsimp only
    rw [hr]
    exact State.answer_applicant t _ _ h
  · rw [hp]
    dsimp only
    rw [hr]
    exact State.answer_applicant t _ _ h

/-! ## Splits armed (R62, R131) -/

/-- The leader's side is table A, the other table B, led by its car at the joint (R62, R131). -/
theorem State.startSplit_told {b s : State} {it : WorkItem} {x l h : Tag} {p : Nat} {l' h' : Tag}
    (hj : rejoin l h s.entries = some (p, l', h')) :
    let low := grantRates s.settings.period (keepRun s.entries 1 p)
    let high := grantRates s.settings.period (keepRun s.entries (p + 1) s.n)
    let below := holdsTag (keepRun s.entries 1 p) s.ownTag
    let leads := if below then h' else l'
    let t := State.settle b (s.startSplit it x l h)
    t.pet.work = s.pet.work ∧ t.pet.inProgress = some it
      ∧ t.form.procedure = some .arming ∧ t.form.current = s.form.current ∧ t.form.designatedB = some leads
      ∧ t.form.armedA = some (Table.mk s.nextEpoch (if below then low else high))
      ∧ t.form.armedB = some (Table.mk s.nextEpoch (if below then high else low))
      ∧ t.pet.split = some { low := l', high := h', requester := x, designatedB := leads, stage := .arming, armedTime := 0
                             execution := 0 } := by
  intro low high below leads t
  have side : ∀ u v : List Entry, grantRates s.settings.period (if below then u else v) =
      if below then grantRates s.settings.period u else grantRates s.settings.period v := by
    intro u v
    split <;> rfl
  have hf : t.form = (s.startSplit it x l h).form := settle_form _ _
  have hp : t.pet = (s.startSplit it x l h).pet := settle_pet _ _
  rw [hf, hp]
  unfold State.startSplit
  rw [hj]
  exact ⟨rfl, rfl, rfl, rfl, rfl, congrArg (fun ens => some (Table.mk s.nextEpoch ens)) (side _ _),
    congrArg (fun ens => some (Table.mk s.nextEpoch ens)) (side _ _), rfl⟩

/-- Settles O54. -/
theorem silentCarIsDropped : Obligations.SilentCarIsDropped := by
  intro s x rest hp
  refine ⟨fun hdue hl hw => ?_, fun w hl hi hd hs hw hh hlim => ?_, fun hd hi => workItemStart_owed hp hd hi,
    fun w x e c cap fx en h hin hen => ?_, fun w x e r h hh hout hr => ?_, fun w x l h p0 p l' h' hst hh hj => ?_,
    fun w x en pl hst hlen => ?_⟩
  · let s1 : State := { s with pet := { s.pet with silenceDue := rest } }
    let s2 : State := { s1 with pet := { s1.pet with work := insertUrgent (.dropout x) s.pet.work } }
    have hpl : s1.place (.dropout x) = some s2 := by
      show Option.map _ (placeItem (.dropout x) s.pet.work) = _
      rw [placeItem_dropout hl hw]
      rfl
    have hx : exec .silenceLimit s = finish s { s2 with pet := { s2.pet with
        silence := s2.pet.silence.map fun c => if c.tag = x then { c with owed := false } else c } } := by
      rw [exec_silenceLimit, execSilenceLimit, whenPowered_of_powered hp, hdue]
      dsimp only
      rw [show State.place _ (.dropout x) = some s2 from hpl]
    refine ⟨_, hx, ?_, ?_, ?_, ?_⟩
    · rw [settle_pet]
    · rw [settle_pet]
    · rw [settle_form]
    · rw [settle_timer]
  · have hst : ItemStarts s (.dropout x) w := ⟨hp, node_of_leading hl, hi, hd, hs, hw⟩
    have hx := workItemStart_of hst (by
      show (holdsTag s.entries x && s.pet.silence.any _) = true
      rw [hh]
      exact hlim)
    exact ⟨_, hx, announced_told (b := s) (s := s.itemTaken (.dropout x) w) (.dropout x) _⟩
  · have hx := workItemStart_of h hin
    have hrun : breakRun s.entries x e = if en.orientation.sideOf e = .far then keepRun s.entries 1 en.position
        else keepRun s.entries en.position s.n := by
      unfold breakRun
      rw [hen]
      rfl
    rw [← hrun]
    exact ⟨_, hx, announced_told (b := s) (s := s.itemTaken (.brk x e c cap fx) w) (.brk x e c cap fx) _⟩
  · intro m principal period refusal said
    let s0 := s.itemTaken (.join x e r) w
    have hx := workItemStart_of h (by
      show (holdsTag s.entries x && outerIn s.entries x e) = true
      rw [hh, hout]
      rfl)
    have hpr : s0.isPrincipal r.header = true ↔ principal := s0.isPrincipal_iff r.header
    have hper : (if s0.isPrincipal r.header then s0.settings.period else r.header.period) = period :=
      if_congr hpr rfl rfl
    have href : s0.joinRefusal r (if s0.isPrincipal r.header then s0.settings.period else r.header.period) = refusal := by
      rw [hper]
      exact if_congr Iff.rfl rfl (if_congr (tagsMeet_iff _ _) rfl rfl)
    obtain ⟨-, -, hfree, -, hsteady, -⟩ := h
    cases hc : refusal with
    | some why =>
      have hd := State.decideJoin_refused (s := s0) (e := e) (r := r) hr (href.trans hc)
      refine ⟨_, hx.trans (congrArg (finish s) hd), ?_, ?_, fun why' hw => ?_, nofun, nofun, nofun⟩
      · rw [settle_pet]; rfl
      · rw [settle_form]; rfl
      · cases hw
        refine ⟨?_, ?_, ?_⟩
        · rw [settle_pet]; rfl
        · rw [settle_pet]; exact hfree
        · rw [settle_form]; exact hsteady
    | none =>
      obtain ⟨hyes, hno⟩ := State.decideJoin_begun (s := s0) (e := e) (r := r) hr (href.trans hc)
      have hrole : (if s0.isPrincipal r.header then JoinRole.principal else .absorbed) =
          if principal then .principal else .absorbed := if_congr hpr rfl rfl
      have hphase : (if s0.isPrincipal r.header then JoinPhase.admitting else .awaitReady) =
          if principal then .admitting else .awaitReady := if_congr hpr rfl rfl
      rw [hrole, hphase] at hyes hno
      by_cases hp' : principal
      · refine ⟨_, hx.trans (congrArg (finish s) (hyes (hpr.mpr hp'))), ?_, ?_, nofun, fun _ => ⟨?_, ?_⟩,
          fun _ _ => ⟨?_, ?_, ?_⟩, fun _ hn => absurd hp' hn⟩
        · rw [settle_pet]; rfl
        · rw [settle_form]; rfl
        · rw [settle_pet]; rfl
        · rw [settle_pet]; rfl
        · rw [settle_pet]; rfl
        · rw [settle_form]; rfl
        · rw [settle_form]; rfl
      · have hf : s0.isPrincipal r.header = false := by
          rw [← Bool.not_eq_true]
          exact fun hb => hp' (hpr.mp hb)
        refine ⟨_, hx.trans (congrArg (finish s) (hno hf)), ?_, ?_, nofun, fun _ => ⟨?_, ?_⟩,
          fun _ hn => absurd hn hp', fun _ _ => ⟨?_, ?_⟩⟩
        · rw [settle_pet]; rfl
        · rw [settle_form]; rfl
        · rw [settle_pet]; rfl
        · rw [settle_pet]; rfl
        · rw [settle_pet]; rfl
        · rw [settle_form]; exact hsteady
  · have hx := workItemStart_of hst (by
      show (holdsTag s.entries x && (rejoin l h s.entries).isSome) = true
      rw [hh, hj]
      rfl)
    exact ⟨_, hx, State.startSplit_told (b := s) (s := s.itemTaken (.split x l h p0) w) (it := .split x l h p0) (x := x) hj⟩
  · intro refusal said
    have hx := workItemStart_of hst rfl
    obtain ⟨hstale, href, hacc⟩ :=
      State.startEnroll_eq (s := s.itemTaken (.enroll x en pl) w) (.enroll x en pl) x en pl hlen
    obtain ⟨-, -, hfree, -⟩ := hst
    cases hpt : pl.point s.entries with
    | none =>
      refine ⟨_, hx.trans (congrArg (finish s) (hstale hpt)), ?_, ?_, fun _ => ⟨?_, ?_⟩, nofun, nofun⟩
      · rw [settle_pet]; rfl
      · rw [settle_form]; rfl
      · rw [settle_pet]; rfl
      · rw [settle_pet]; exact hfree
    | some a =>
      cases hc : refusal with
      | some why =>
        refine ⟨_, hx.trans (congrArg (finish s) (href a why hpt hc)), ?_, ?_, nofun, fun a' why' _ hw => ?_, nofun⟩
        · rw [settle_pet]; rfl
        · rw [settle_form]; rfl
        · cases hw
          exact ⟨by rw [settle_pet]; rfl, by rw [settle_pet]; exact hfree⟩
      | none =>
        refine ⟨_, hx.trans (congrArg (finish s) (hacc a hpt hc)), ?_, ?_, nofun, nofun, fun a' ha _ => ?_⟩
        · rw [settle_pet]; rfl
        · rw [settle_form]; rfl
        · cases ha
          refine ⟨?_, ?_, ?_, ?_⟩
          · rw [settle_pet]; rfl
          · rw [settle_pet]; rfl
          · rw [settle_form]; rfl
          · rw [settle_form]; rfl

end Sys2Proof.Machine
end

section
/-! PROOFS. Cell starts: the roll record, the petition, channel records and the ENROLL (R24, R28, R53, R87, R96, R122,
R151). -/

namespace Sys2Proof.Machine

open Sys2Proof

/-! ## Own records on the ends (R10, R11) -/

theorem EndUnit.transmit_free {u : EndUnit} (h : u.sending = none) (i : Nat) (r : TxRecord) :
    (u.transmit i r).sending = some { record := r, ends := i + r.octets.length } := by
  unfold EndUnit.transmit
  rw [h]

theorem State.condition_of_detector {s x : State} (hp : x.powered = s.powered) (hn : x.form.node = s.form.node) {e : EndId}
    (h : (x.endUnit e).detector = (s.endUnit e).detector) : x.condition e = s.condition e :=
  State.condition_congr hp hn e (congrArg EndUnit.mode h :) (congrArg EndUnit.segregated h :)

theorem State.sendOwnOn_condition (s : State) (e e' : EndId) (os : List Octet) :
    (s.sendOwnOn e os).condition e' = s.condition e' := by
  refine State.condition_of_detector (s.mapEnd_powered e _) (by
    show (s.mapEnd e _).form.node = _
    rw [State.mapEnd_form]) ?_
  cases e <;> cases e' <;> first | rfl | exact EndUnit.transmit_detector _ _ _

/-- An own record goes out on the ends that a condition of theirs picks, with the octets made for each. -/
def State.sendWhere (s : State) (c : EndId → Prop) [DecidablePred c] (make : EndId → List Octet) : State :=
  let x := if c .e1 then s.sendOwnOn .e1 (make .e1) else s
  if c .e2 then x.sendOwnOn .e2 (make .e2) else x

theorem State.sendWhere_endUnit (s : State) (c : EndId → Prop) [DecidablePred c] (make : EndId → List Octet) (e : EndId) :
    (s.sendWhere c make).endUnit e =
      if c e then (s.endUnit e).transmit s.now { octets := make e, heard := none } else s.endUnit e := by
  unfold State.sendWhere
  by_cases h1 : c .e1 <;> by_cases h2 : c .e2 <;> cases e <;> simp only [h1, h2, if_true, if_false] <;> rfl

theorem State.sendWhere_withEnds (s : State) (c : EndId → Prop) [DecidablePred c] (make : EndId → List Octet) :
    ∃ u v, s.sendWhere c make = s.withEnds u v := by
  unfold State.sendWhere
  by_cases h1 : c .e1 <;> by_cases h2 : c .e2 <;> simp only [h1, h2, if_true, if_false] <;> exact ⟨_, _, rfl⟩

theorem State.sendOwn_where (s : State) (make : Side → List Octet) :
    s.sendOwn make = s.sendWhere (fun e => s.condition e = .active) fun e => make (s.sideOf e) := by
  have second : ∀ x : State, x.condition .e2 = s.condition .e2 → x.sideOf .e2 = s.sideOf .e2 → x.sendOwnAt make .e2 =
      if s.condition .e2 = .active then x.sendOwnOn .e2 (make (s.sideOf .e2)) else x := by
    intro x hc hs
    unfold State.sendOwnAt
    rw [hc, hs]
  rw [State.sendOwn_eq]
  refine second _ ?_ ?_
  · unfold State.sendOwnAt
    split
    · exact State.sendOwnOn_condition _ _ _ _
    · rfl
  · unfold State.sendOwnAt
    split <;> rfl

/-! ## What a cell leaves alone -/

/-- What a slot's block leaves of the part but for the records on its ends. -/
structure CellDone (x y : State) : Prop where
  timer : y.timer = x.timer
  now : y.now = x.now
  powered : y.powered = x.powered
  node : y.form.node = x.form.node
  ends : ∀ e, (y.endUnit e).detector = (x.endUnit e).detector

theorem CellDone.refl (x : State) : CellDone x x := ⟨rfl, rfl, rfl, rfl, fun _ => rfl⟩

theorem CellDone.sendWhere {x y : State} (h : CellDone x y) (c : EndId → Prop) [DecidablePred c]
    (make : EndId → List Octet) : CellDone x (y.sendWhere c make) := by
  have he : ∀ e, ((y.sendWhere c make).endUnit e).detector = (y.endUnit e).detector := by
    intro e
    rw [State.sendWhere_endUnit]
    split
    · exact EndUnit.transmit_detector _ _ _
    · rfl
  obtain ⟨u, v, hw⟩ := y.sendWhere_withEnds c make
  rw [hw] at he ⊢
  exact ⟨h.timer, h.now, h.powered, h.node, fun e => (he e).trans (h.ends e)⟩

theorem CellDone.sendOwnOn {x y : State} (h : CellDone x y) (e : EndId) (os : List Octet) :
    CellDone x (y.sendOwnOn e os) := by
  have he : ∀ e', ((y.sendOwnOn e os).endUnit e').detector = (y.endUnit e').detector := by
    intro e'
    cases e <;> cases e' <;> first | rfl | exact EndUnit.transmit_detector _ _ _
  obtain ⟨u, v, hw⟩ := y.mapEnd_withEnds e (EndUnit.transmit y.now { octets := os, heard := none })
  have hw' : y.sendOwnOn e os = y.withEnds u v := hw
  rw [hw'] at he ⊢
  exact ⟨h.timer, h.now, h.powered, h.node, fun e' => (he e').trans (h.ends e')⟩

theorem CellDone.sendOwn {x y : State} (h : CellDone x y) (make : Side → List Octet) : CellDone x (y.sendOwn make) := by
  rw [State.sendOwn_where]
  exact h.sendWhere _ _

theorem CellDone.mapApplicant {x y : State} (h : CellDone x y) (f : ApplicantRecord → ApplicantRecord) :
    CellDone x (y.mapApplicant f) :=
  ⟨h.timer, h.now, h.powered, h.node, fun e => by cases e <;> [exact h.ends .e1; exact h.ends .e2]⟩

theorem CellDone.condition {x y : State} (h : CellDone x y) (e : EndId) : y.condition e = x.condition e :=
  State.condition_of_detector h.powered h.node (h.ends e)

theorem State.sendChannel_done (s : State) (ch : Nat) : CellDone s (s.sendChannel ch) := by
  unfold State.sendChannel
  split
  · exact (CellDone.refl s).sendOwn _
  · exact CellDone.refl s

theorem State.channelCell_done (s : State) (slot : Nat) : CellDone s (s.channelCell slot) := by
  unfold State.channelCell
  split
  · split
    · exact s.sendChannel_done _
    · exact CellDone.refl s
  · exact CellDone.refl s

theorem State.sendRoll_done (s : State) : CellDone s s.sendRoll := by
  unfold State.sendRoll
  dsimp only
  split
  · exact CellDone.refl s
  · refine CellDone.sendOwn ?_ _
    exact ⟨rfl, rfl, rfl, rfl, fun e => by cases e <;> rfl⟩

theorem State.pickBody_done (ws : List Want) (s x : State) (h : CellDone x s) : CellDone x (State.pickBody ws s).1 := by
  induction ws generalizing s with
  | nil => exact h
  | cons w ws ih =>
    unfold State.pickBody
    split
    · exact ⟨h.timer, h.now, h.powered, h.node, fun e => by cases e <;> [exact h.ends .e1; exact h.ends .e2]⟩
    · exact ih _ ⟨h.timer, h.now, h.powered, h.node, fun e => by cases e <;> [exact h.ends .e1; exact h.ends .e2]⟩

theorem State.sendPetition_done (s : State) : CellDone s s.sendPetition :=
  (State.pickBody_done s.pet.queue s s (CellDone.refl s)).sendOwn _

/-- An ENROLL goes out on every end that is not ISOLATED (R122). -/
theorem State.sendEnroll_eq {s : State} {slot : Nat} {a : ApplicantRecord} {p : Place} {o : Orientation}
    (ha : s.form.applicant = some a) (hst : a.status = .enrolling) (hp : a.place = some p) (ho : a.orientation = some o)
    (hr : enrollRound s.ownTag a.attempt s.timer.round = true) (hs : a.sentRound ≠ some s.timer.round) :
    s.sendEnroll slot = (s.sendWhere (fun e => ¬ s.condition e = .isolated) fun e =>
      petitionRecord 0 s.ownTag (.enroll p (s.wouldBeEntry p o)) (o.sideOf e)).mapApplicant fun a =>
        { a with roundStarts := some 0, enrollSlot := some slot, sentRound := some s.timer.round } := by
  unfold State.sendEnroll
  rw [ha]
  dsimp only
  rw [hst, hp, ho]
  dsimp only
  rw [if_pos (by rw [hr]; simpa using hs)]
  refine congrArg (State.mapApplicant · _) ?_
  have at_ : ∀ (x : State) (e : EndId) (os : List Octet), x.condition e = s.condition e →
      (if x.condition e = .isolated then x else x.sendOwnOn e os) =
        if ¬ s.condition e = .isolated then x.sendOwnOn e os else x := by
    intro x e os h
    rw [h, ite_not]
  refine (at_ _ .e2 _ ?_).trans ?_
  · split
    · rfl
    · exact State.sendOwnOn_condition _ _ _ _
  · rw [at_ s .e1 _ rfl]
    rfl

theorem State.sendEnroll_done (s : State) (slot : Nat) : CellDone s (s.sendEnroll slot) := by
  unfold State.sendEnroll
  split
  · dsimp only
    split
    · split
      · have put : ∀ (x : State) (e : EndId) (os : List Octet), CellDone s x →
            CellDone s (if x.condition e = .isolated then x else x.sendOwnOn e os) := by
          intro x e os h
          split
          · exact h
          · exact h.sendOwnOn e os
        exact (put _ .e2 _ (put s .e1 _ (CellDone.refl s))).mapApplicant _
      · exact CellDone.refl s
    · exact CellDone.refl s
  · exact CellDone.refl s

theorem State.cell_done (s : State) (slot : Nat) : CellDone s (s.cell slot) := by
  unfold State.cell
  repeat' split
  all_goals first
    | exact CellDone.refl s
    | exact s.sendRoll_done
    | exact s.channelCell_done slot
    | exact s.sendPetition_done
    | exact s.sendEnroll_done slot

theorem State.mapApplicant_endUnit (s : State) (f : ApplicantRecord → ApplicantRecord) (e : EndId) :
    (s.mapApplicant f).endUnit e = s.endUnit e := by
  cases e <;> rfl

/-! ## The slot start (R24, R28, R35) -/

/-- The part at the start of a slot, before the slot's block sends. -/
def State.atSlot (s : State) (slot : Nat) : State := { s with timer := { s.timer with nextSlot := slot + 1 } }

theorem exec_cellStart_due {s : State} (hp : s.powered = true) (hl : s.timer.lock ≠ .idle)
    (hn : s.timer.nextSlot < s.slots) : exec .cellStart s =
      finish (s.advance (40 + 100 * s.timer.nextSlot - s.timer.counter))
        (((s.advance (40 + 100 * s.timer.nextSlot - s.timer.counter)).atSlot s.timer.nextSlot).cell s.timer.nextSlot) := by
  rw [exec_cellStart, execCellStart, whenPowered_of_powered hp]
  exact if_pos (by simp [hl, hn])

theorem CellDone.settle {b x y : State} (h : CellDone x y) (hb : b.powered = x.powered ∧ b.form.node = x.form.node)
    (he : ∀ e, b.endUnit e = x.endUnit e) (e : EndId) :
    ((State.settle b y).endUnit e).sending = (y.endUnit e).sending
      ∧ ((State.settle b y).endUnit e).waiting = (y.endUnit e).waiting := by
  have hc : ∀ e, b.condition e = y.condition e := fun e =>
    (State.condition_congr hb.1 hb.2 e (by rw [he]) (by rw [he])).trans (h.condition e).symm
  exact ⟨settle_sending hc e, settle_waiting hc e⟩

/-- An own record of a block on an ACTIVE end with a free transmitter (R10, R11). -/
theorem sendOwn_free {s : State} {e : EndId} (hc : s.condition e = .active) (hs : (s.endUnit e).sending = none)
    (make : Side → List Octet) : ((s.sendOwn make).endUnit e).sending =
      some { record := { octets := make (s.sideOf e), heard := none }, ends := s.now + (make (s.sideOf e)).length } := by
  rw [State.sendOwn_where, State.sendWhere_endUnit, if_pos hc]
  exact EndUnit.transmit_free hs _ _

/-! ## What each block sends -/

theorem State.cell_lead {s : State} (h : s.leading = true) (slot : Nat) :
    s.cell slot = if slot = 0 then s.sendRoll else s.channelCell slot := if_pos h

theorem State.leading_of_node {s : State} (h : s.form.node ≠ .lead) : s.leading = false := by
  unfold State.leading
  rw [beq_eq_false_iff_ne.mpr h]
  rfl

theorem State.cell_member {s : State} (hs : s.synced = true) (hk : s.timer.kind = .marked) (slot : Nat) : s.cell slot =
    if petitionCell s.ownPosition = (slot, s.timer.index) then s.sendPetition else s.channelCell slot := by
  have hn := node_of_synced hs
  have hl : s.leading = false := State.leading_of_node (by rw [hn]; decide)
  unfold State.cell
  rw [if_neg (by rw [hl]; exact Bool.false_ne_true), if_neg (not_not_intro hk), if_pos hn, if_neg (by rw [hs]; decide)]

theorem State.cell_applicant {s : State} {m : MarkFields} {slot : Nat} (hn : s.form.node = .applicant)
    (hk : s.timer.kind = .marked) (hm : s.timer.latched = some m)
    (hc : applicantCell m.n = some (slot, s.timer.index)) : s.cell slot = s.sendEnroll slot := by
  have hl : s.leading = false := State.leading_of_node (by rw [hn]; decide)
  unfold State.cell
  rw [if_neg (by rw [hl]; exact Bool.false_ne_true), if_neg (not_not_intro hk), if_neg (by rw [hn]; decide), if_pos hn, hm]
  exact if_pos hc

/-- An applicant that has sent its ENROLL in this round sends none (R122). -/
theorem State.cell_enrolled {s : State} {a : ApplicantRecord} (hn : s.form.node = .applicant)
    (ha : s.form.applicant = some a) (hs : a.sentRound = some s.timer.round) (slot : Nat) : s.cell slot = s := by
  have hl : s.leading = false := State.leading_of_node (by rw [hn]; decide)
  have hen : s.sendEnroll slot = s := by
    unfold State.sendEnroll
    rw [ha]
    dsimp only
    split
    · exact if_neg (by simp [hs])
    · rfl
  unfold State.cell
  rw [if_neg (by rw [hl]; exact Bool.false_ne_true)]
  split
  · rfl
  · rw [if_neg (by rw [hn]; decide)]
    split
    · split
      · exact hen
      · rfl
    · rfl

theorem State.bodyOf_congr {s t : State} (h : t.entries = s.entries) (w : Want) : t.bodyOf w = s.bodyOf w := by
  cases w <;> first | rfl | (unfold State.bodyOf; rw [h])

/-- The petition of a part with no want is of kind NONE, with wants it carries the oldest (R87). -/
theorem State.sendPetition_eq (s : State) :
    (s.pet.queue = [] → s.sendPetition = s.sendOwn (petitionRecord s.ownPosition s.ownTag .none))
    ∧ (∀ w rest b, s.pet.queue = w :: rest → s.bodyOf w = some b →
      s.sendPetition = (s.wantSent w).sendOwn (petitionRecord s.ownPosition s.ownTag b)) := by
  unfold State.sendPetition
  refine ⟨fun h => ?_, fun w rest b h hb => ?_⟩
  · rw [h]
    rfl
  · rw [h]
    unfold State.pickBody
    rw [hb]
    rfl

/-- The roll record of a leader in STEADY, its pointer in the current table (R53, R96). -/
theorem State.sendRoll_eq {s : State} {tb : Table} {i : Nat} (hm : s.timer.latched.map MarkFields.procedure = some .steady)
    (hc : s.form.current = some tb) (hr : s.form.rollPointer = some { table := 0, index := i }) : s.sendRoll =
      ({ s with
        form := { s.form with rollPointer := some { table := 0, index := if tb.size < i + 3 then 1 else i + 3 } }
        pet := { s.pet with answers := (nextAnswer s.entries s.pet.answers).2 } } : State).sendOwn
          (rollRecord { kind := .current, epoch := tb.epoch, size := tb.size, first := i
                        answer := (nextAnswer s.entries s.pet.answers).1, entries := tb.three i }) := by
  have hl : s.carryList = [(.current, tb)] := by
    unfold State.carryList
    dsimp only
    rw [hm, hc]
    rfl
  have hp : ({ table := 0, index := i } : RollPointer).pass 1 tb.size =
      { table := 0, index := if tb.size < i + 3 then 1 else i + 3 } := by
    unfold RollPointer.pass
    split <;> rfl
  unfold State.sendRoll
  rw [hr, hl]
  dsimp only [Option.getD_some, List.getElem?_cons_zero, List.length_singleton]
  rw [hp]

/-- The channel record of the live copy taken for a cell of the own position (R28, R151). -/
theorem State.channelCell_eq {s : State} {p : Plan} {c : PlanCell} {l : LiveCopy} {tb : Table} {slot : Nat}
    (hp : s.planner.inForce = some p) (ho : p.owner slot s.timer.index = some c) (hc : c.position = s.ownPosition)
    (hl : s.chan.live.find? (fun l => l.channel == c.channel) = some l) (ht : s.form.current = some tb) :
    s.channelCell slot = s.sendOwn (channelRecord { source := s.ownPosition, channel := c.channel, epoch := tb.epoch,
                                                    age := l.age, stale := l.stale, payload := l.payload }) := by
  unfold State.channelCell
  rw [hp]
  dsimp only [Option.bind_some]
  rw [ho]
  dsimp only
  rw [if_pos hc]
  unfold State.sendChannel
  rw [hl, ht]

/-- Settles O55. -/
theorem cellStartSendsPetition : Obligations.CellStartSendsPetition := by
  intro s hp hl hn slot k u
  let y := u.atSlot slot
  have h0 : Passed s u := Passed.advance s k
  have hx : exec .cellStart s = finish u (y.cell slot) := exec_cellStart_due hp hl hn
  have hdone : CellDone y (y.cell slot) := y.cell_done slot
  have htm : u.timer = { s.timer with counter := s.timer.counter + k } := State.advance_counter hp hl k
  have ht : (State.settle u (y.cell slot)).timer = { s.timer with counter := s.timer.counter + k, nextSlot := slot + 1 } := by
    rw [settle_timer, hdone.timer]
    show ({ u.timer with nextSlot := slot + 1 } : CycleTimer) = _
    rw [htm]
  have hends := fun e => hdone.settle (b := u) ⟨rfl, rfl⟩ (fun e => by cases e <;> rfl) e
  have hnow : (State.settle u (y.cell slot)).now = u.now := (settle_now _ _).trans hdone.now
  have hidx : y.timer.index = s.timer.index := (congrArg CycleTimer.index htm :)
  have hkind : y.timer.kind = s.timer.kind := (congrArg CycleTimer.kind htm :)
  have hlat : y.timer.latched = s.timer.latched := (congrArg CycleTimer.latched htm :)
  have hround : y.timer.round = s.timer.round := (congrArg CycleTimer.round htm :)
  have hpos : y.ownPosition = s.ownPosition := h0.ownPosition
  have hown : y.ownTag = s.ownTag := h0.ownTag
  have hside : ∀ e, y.sideOf e = s.sideOf e := h0.sideOf
  have hsyn : y.synced = s.synced := h0.synced
  have hled : y.form.led = s.form.led := show u.form.led = _ by rw [h0.form]
  have hlead : y.leading = s.leading := by
    unfold State.leading
    rw [hled, show y.form.node = s.form.node from h0.node]
  have hcond : ∀ e, y.condition e = s.condition e := fun e =>
    (show y.condition e = u.condition e by cases e <;> rfl).trans (h0.condition (s.advance_detector k e))
  have hunit : ∀ e, y.endUnit e = u.endUnit e := fun e => by cases e <;> rfl
  have sends : ∀ (z : State) (e : EndId) (make : Side → List Octet), y.cell slot = z.sendOwn make →
      (∀ e, z.endUnit e = y.endUnit e) → z.now = y.now → z.powered = y.powered → z.form.node = y.form.node →
      z.sideOf e = y.sideOf e → SendsAtOnce s e k →
      SendsOwn (State.settle u (y.cell slot)) e (make (s.sideOf e)) := by
    intro z e make hz hze hzn hzp hznode hzs hs
    obtain ⟨hc, hfree, -⟩ := hs
    have hzc : z.condition e = .active :=
      (State.condition_congr hzp hznode e (by rw [hze]) (by rw [hze])).trans ((hcond e).trans hc)
    unfold SendsOwn
    rw [(hends e).1, hz, sendOwn_free hzc (by rw [hze, hunit]; exact hfree), hzs, hside, hzn, ← hz, hnow]
    rfl
  refine ⟨_, hx, ?_, ?_, ?_, fun e hm hs hk hq hc hac hse hwa => ?_, fun e w rest b hm hs hk hq hb hc hso => ?_,
    fun e tb i hl h0' hm hc hr hso => ?_, fun e p c l tb hcase hpl hown' hcp hlive hcur hso => ?_,
    fun e a p o m hm hk ha hst hpl ho hlm hcell hrd hmode hse hwa hsr => ?_, fun e a hm ha hsr => ?_⟩
  · rw [ht]
  · rw [ht]
    show s.timer.counter + (40 + 100 * s.timer.nextSlot - s.timer.counter) = _
    omega
  · rw [ht]
  · have hcell : y.cell slot = y.sendOwn (petitionRecord y.ownPosition y.ownTag .none) := by
      rw [State.cell_member (hsyn.trans hs) (hkind.trans hk), hpos, hidx, if_pos hc]
      rw [← hpos]
      exact y.sendPetition_eq.1 (h0.queue.trans hq)
    have := sends y e _ hcell (fun _ => rfl) rfl rfl rfl rfl ⟨hac, hse, hwa⟩
    unfold SendsOwn at this
    rw [hnow, hpos, hown] at this
    exact this
  · have hbody : y.bodyOf w = some b := (State.bodyOf_congr h0.entries w).trans hb
    have hcell : y.cell slot = (y.wantSent w).sendOwn (petitionRecord y.ownPosition y.ownTag b) := by
      rw [State.cell_member (hsyn.trans hs) (hkind.trans hk), hpos, hidx, if_pos hc]
      rw [← hpos]
      exact y.sendPetition_eq.2 w rest b (h0.queue.trans hq) hbody
    have := sends _ e _ hcell (fun e => by cases e <;> rfl) rfl rfl rfl rfl hso
    rw [hpos, hown] at this
    refine ⟨this, ?_⟩
    obtain ⟨v, v', hv⟩ := (y.wantSent w).sendOwn_withEnds (petitionRecord y.ownPosition y.ownTag b)
    rw [settle_pet, hcell, hv]
    show u.pet.queue.map _ = _
    rw [h0.queue]
  · have hroll := State.sendRoll_eq (s := y) (hlat ▸ hm) (show u.form.current = _ from h0.current.trans hc)
      (show u.form.rollPointer = _ by rw [h0.form]; exact hr)
    have hcell : y.cell slot = y.sendRoll := by rw [State.cell_lead (hlead.trans hl), if_pos h0']
    have hans : y.pet.answers = s.pet.answers := show u.pet.answers = _ by rw [h0.pet]
    have hent : y.entries = s.entries := h0.entries
    rw [hans, hent] at hroll
    have hsent := sends _ e _ (hcell.trans hroll) (fun e => by cases e <;> rfl) rfl rfl rfl rfl hso
    obtain ⟨v, v', hv⟩ := State.sendOwn_withEnds ({ y with
      form := { y.form with rollPointer := some { table := 0, index := if tb.size < i + 3 then 1 else i + 3 } }
      pet := { y.pet with answers := (nextAnswer s.entries s.pet.answers).2 } } : State)
        (rollRecord { kind := .current, epoch := tb.epoch, size := tb.size, first := i
                      answer := (nextAnswer s.entries s.pet.answers).1, entries := tb.three i })
    have hpet : (State.settle u (y.cell slot)).pet.answers = (nextAnswer s.entries s.pet.answers).2 := by
      rw [settle_pet, hcell, hroll, hv]
      rfl
    refine ⟨?_, fun ha => ?_, fun a rest r ha hr => ?_⟩
    · rw [settle_form, hcell, hroll, hv]
      rfl
    · rw [ha] at hsent hpet
      exact ⟨hsent, hpet⟩
    · have hnext : nextAnswer s.entries (a :: rest) = (some r, rest) := by
        unfold nextAnswer
        rw [hr]
      rw [ha, hnext] at hsent hpet
      exact ⟨hsent, hpet⟩
  · have hch := State.channelCell_eq (s := y) (slot := slot) (by show u.planner.inForce = _; rw [h0.planner]; exact hpl)
      (by rw [hidx]; exact hown') (hcp.trans hpos.symm) (by show u.chan.live.find? _ = _; rw [h0.chan]; exact hlive)
      (show u.form.current = _ from h0.current.trans hcur)
    have hcell : y.cell slot = y.channelCell slot := by
      rcases hcase with ⟨hl, hne⟩ | ⟨hm, hs, hk, hne⟩
      · rw [State.cell_lead (hlead.trans hl), if_neg hne]
      · rw [State.cell_member (hsyn.trans hs) (hkind.trans hk), hpos, hidx, if_neg hne]
    have := sends y e _ (hcell.trans hch) (fun _ => rfl) rfl rfl rfl rfl hso
    rw [hpos] at this
    exact this
  · have hnode : y.form.node = .applicant := h0.node.trans hm
    have hap : y.form.applicant = some a := show u.form.applicant = _ by rw [h0.form]; exact ha
    have hen := State.sendEnroll_eq (s := y) (slot := slot) hap hst hpl ho
      (by rw [hown, hround]; exact beq_iff_eq.mpr hrd) (by rw [hround]; exact hsr)
    have hcell : y.cell slot = y.sendEnroll slot :=
      State.cell_applicant hnode (hkind.trans hk) (hlat.trans hlm) (by rw [hidx]; exact hcell)
    have hbyp : ¬ y.condition e = .isolated := by
      rw [hcond e]
      simp [State.condition, hp, hmode, hm]
    have hwb : y.wouldBeEntry p o = s.wouldBeEntry p o := by
      have hst' : y.store = s.store := h0.store
      unfold State.wouldBeEntry State.soleEntry State.fixedEnd
      rw [hst']
    refine ⟨?_, ?_⟩
    · unfold SendsOwn
      have hfree : (y.endUnit e).sending = none := by rw [hunit]; exact hse
      have hsend : ((y.cell slot).endUnit e).sending = some
          { record := { octets := petitionRecord 0 s.ownTag (.enroll p (s.wouldBeEntry p o)) (o.sideOf e), heard := none }
            ends := u.now + (petitionRecord 0 s.ownTag (.enroll p (s.wouldBeEntry p o)) (o.sideOf e)).length } := by
        rw [hcell, hen, ← hwb, ← hown]
        rw [State.mapApplicant_endUnit, State.sendWhere_endUnit, if_pos hbyp]
        exact EndUnit.transmit_free hfree _ _
      rw [(hends e).1, hsend, hnow]
    · obtain ⟨v, v', hv⟩ := y.sendWhere_withEnds (fun e => ¬ y.condition e = .isolated) fun e =>
        petitionRecord 0 y.ownTag (.enroll p (y.wouldBeEntry p o)) (o.sideOf e)
      rw [settle_form, hcell, hen, hv, ← hround]
      show u.form.applicant.map _ = _
      rw [show u.form.applicant = some a from hap]
      rfl
  · have hnode : y.form.node = .applicant := h0.node.trans hm
    have hap : y.form.applicant = some a := show u.form.applicant = _ by rw [h0.form]; exact ha
    have hcell : y.cell slot = y := State.cell_enrolled hnode hap (by rw [hround]; exact hsr) slot
    have he := hends e
    rw [hcell, hunit] at he
    refine ⟨?_, ?_, ?_⟩
    · rw [settle_form, hcell]; exact hap
    · rw [hcell]; exact he.1
    · rw [hcell]; exact he.2

end Sys2Proof.Machine
end

section
/-! PROOFS. Records that come to an ACTIVE end: the path they take, channel records, petitions (R8, R9, R90, R153). -/

namespace Sys2Proof.Machine

open Sys2Proof

/-! ## Where a good record goes (R8, R9) -/

theorem State.condition_active {s : State} {e : EndId} (hp : s.powered = true)
    (hn : s.form.node ≠ .detached ∧ s.form.node ≠ .listen ∧ s.form.node ≠ .applicant) (hm : (s.endUnit e).mode = .line)
    (hs : (s.endUnit e).segregated = false) : s.condition e = .active := by
  obtain ⟨h1, h2, h3⟩ := hn
  simp [State.condition, hp, hm, hs, h1, h2, h3]

/-- A state a record has come to, as its block finds it: time has passed, the end units carry the record, no more. -/
structure CameTo (s : State) (k : Nat) (z : State) : Prop where
  interior : z.interior = (s.advance k).interior
  link : z.link = s.link
  outbox : z.outbox = s.outbox
  ends : ∀ e, (z.endUnit e).detector = (s.endUnit e).detector

theorem CameTo.passed {s z : State} {k : Nat} (h : CameTo s k z) : Passed s z := (Passed.advance s k).of_interior h.interior
theorem CameTo.form {s z : State} {k : Nat} (h : CameTo s k z) : z.form = (s.advance k).form := (congrArg State.form h.interior :)
theorem CameTo.timer {s z : State} {k : Nat} (h : CameTo s k z) : z.timer = (s.advance k).timer := (congrArg State.timer h.interior :)
theorem CameTo.pet {s z : State} {k : Nat} (h : CameTo s k z) : z.pet = (s.advance k).pet := (congrArg State.pet h.interior :)
theorem CameTo.now {s z : State} {k : Nat} (h : CameTo s k z) : z.now = s.now + k :=
  (congrArg State.now h.interior :).trans (s.advance_now k)

theorem State.recordCame_came (s : State) (k : Nat) (e : EndId) (os : List Octet) : CameTo s k (s.recordCame k e os) :=
  ⟨s.recordCame_interior k e os, s.recordCame_link k e os, s.recordCame_outbox k e os, s.recordCame_detector k e os⟩

theorem CameTo.passOn {s y : State} {k : Nat} (h : CameTo s k y) (e : EndId) (p : Path) (i n : Nat) (c : List Octet) :
    CameTo s k (y.passOn e p i n c) := by
  have hd := fun e' => (y.passOn_detector e p i n c e').trans (h.ends e')
  obtain ⟨u, v, hw⟩ := y.passOn_withEnds e p i n c
  rw [hw] at hd ⊢
  exact ⟨h.interior, h.link, h.outbox, hd⟩

/-- A good record on an ACTIVE end where no join detection runs is handed to its block (R9). -/
theorem receive_inward {s : State} {k : Nat} {e : EndId} {kind : Octet} {os : List Octet} (hg : goodRecordOf kind os = true)
    (hp : s.powered = true) (hc : s.condition e = .active) (ho : s.outer e = false) (hand : Path → State → State) :
    ∃ z, receive k e kind os s hand = finish (s.recordCame k e os) (hand .inward z) ∧ CameTo s k z := by
  have hcame := s.recordCame_came k e os
  have hpath : (s.recordCame k e os).pathOf e os = .inward := by
    have hp0 : (s.recordCame k e os).path e = .inward := by
      unfold State.path
      rw [hcame.passed.condition (hcame.ends e), hc]
      exact if_neg (by rw [hcame.passed.outer, ho]; simp)
    unfold State.pathOf
    rw [hp0]
    rfl
  refine ⟨_, (receive_good hg hp hand).trans ?_, hcame.passOn e .inward (s.now + k) os.length (relayCopy os)⟩
  rw [hpath]

/-- A good record that is no petition goes to the join detector on an outer end of a LEAD or MEMBER (R9). -/
theorem receive_outside {s : State} {k : Nat} {e : EndId} {kind : Octet} {os : List Octet} (hg : goodRecordOf kind os = true)
    (hk : kind ≠ kindPetition) (hp : s.powered = true) (hc : s.condition e = .active) (ho : s.outer e = true)
    (hn : s.form.node = .lead ∨ s.form.node = .member) (hand : Path → State → State) :
    receive k e kind os s hand = finish (s.recordCame k e os) (hand .outside (s.recordCame k e os)) := by
  have hcame := s.recordCame_came k e os
  have hpath : (s.recordCame k e os).pathOf e os = .outside := by
    have hp0 : (s.recordCame k e os).path e = .outside := by
      unfold State.path
      rw [hcame.passed.condition (hcame.ends e), hc]
      exact if_pos (by rw [hcame.passed.outer, ho, hcame.passed.node]; rcases hn with hn | hn <;> rw [hn] <;> rfl)
    have ha : (s.recordCame k e os).fromApplicant os = false := by
      have h0 : octetAt os 0 = kind := by
        have := (Bool.and_eq_true_iff.mp hg).1
        exact beq_iff_eq.mp this
      unfold State.fromApplicant
      rw [h0, beq_eq_false_iff_ne.mpr hk]
      rfl
    unfold State.pathOf
    rw [hp0, ha]
    rfl
  refine (receive_good hg hp hand).trans ?_
  rw [hpath]
  rfl

/-! ## Channel records (R153, R154) -/

theorem State.cellCheck_of_interior {s z : State} (h : z.interior = s.interior) (q ch : Nat) :
    z.cellCheck q ch = s.cellCheck q ch := (congrArg (fun x : State => x.cellCheck q ch) h :)

/-- A channel record that passes every step of its judgement is taken into the image (R153, R154). -/
theorem State.takeChannelRecord_taken {s : State} {e : EndId} {c : ChannelFields} {tb : Table} {en : Entry} {d : ChannelDesc}
    (hc : c.channel ≤ 7) (hn : s.form.node = .lead ∨ s.form.node = .member) (ht : s.form.current = some tb)
    (he : tb.epoch = c.epoch) (hk : s.cellCheck c.source c.channel = true) (ho : c.source ≠ s.ownPosition)
    (hen : entryAt s.entries c.source = some en) (hd : en.channels[c.channel]? = some d) :
    s.takeChannelRecord e c = s.setImage (takeAt s.cells c.source c.channel (sensed s.ownOrientation d.sided c.payload)
      c.age c.stale) := by
  unfold State.takeChannelRecord
  rw [if_neg (by omega), if_neg (by rcases hn with hn | hn <;> rw [hn] <;> decide),
    if_neg (by rw [ht, ← he]; exact not_not_intro rfl), if_neg (by rw [hk]; decide), if_neg ho, hen]
  dsimp only
  rw [hd]

theorem sensed_eq (o : Option Orientation) (sided : Bool) (p : List Octet) : sensed o sided p =
    if o = some .reversed ∧ sided = true then p.drop 16 ++ p.take 16 else p := by
  unfold sensed swapHalves
  exact if_congr (by simp) rfl rfl

/-- Settles O45. -/
theorem channelRecordAccepted : Obligations.ChannelRecordAccepted := by
  intro s e os tb x en d k hp hn hm hs ho hg c hc ht he hk hown hen hd hx
  have hact : s.condition e = .active := State.condition_active hp
    (by rcases hn with hn | hn <;> rw [hn] <;> decide) hm hs
  obtain ⟨z, hr, hz⟩ := receive_inward (k := k) hg hp hact ho fun p s => s.handChannel e os p
  have h0 := hz.passed
  have htaken : z.takeChannelRecord e c = z.setImage (takeAt z.cells c.source c.channel
      (sensed z.ownOrientation d.sided c.payload) c.age c.stale) :=
    State.takeChannelRecord_taken hc (by rw [h0.node]; exact hn) (h0.current.trans ht) he
      ((State.cellCheck_of_interior hz.interior _ _).trans hk) (by rw [h0.ownPosition]; exact hown)
      (by rw [h0.entries]; exact hen) hd
  obtain ⟨o, hi, -⟩ := z.setImage_only (takeAt z.cells c.source c.channel (sensed z.ownOrientation d.sided c.payload)
    c.age c.stale)
  have horient : z.ownOrientation = s.ownOrientation := by
    rw [State.ownOrientation, State.ownEntry, h0.entries, h0.ownTag]
    rfl
  have hres : exec (.channelRecordReceived k e os) s = finish (s.recordCame k e os) (z.takeChannelRecord e c) :=
    (exec_channelRecordReceived s k e os).trans hr
  rw [htaken, hi] at hres
  refine ⟨_, hres, ?_, ?_, ?_, ?_⟩
  · rw [State.cells, settle_chan]
    refine (cellAt_takeAt_same z.cells c.source c.channel _ c.age c.stale).trans ?_
    rw [h0.cells, hx, horient]
    rw [sensed_eq]
    rfl
  · rw [settle_chan]
    show z.chan.out = _
    rw [h0.chan]
  · rw [settle_form]; exact hz.form
  · rw [settle_pet]; exact hz.pet

/-! ## Petitions (R90) -/

/-- A petition from the car and in the cell of its position is judged by the leader by kind and body (R90). -/
theorem petition_judged {s : State} {e : EndId} {os : List Octet} {en : Entry} {k : Nat} (h : PetitionComes s e os en k) :
    ∃ z, exec (.petitionRecordReceived k e os) s = finish (s.recordCame k e os) (z.takePetition e os) ∧ CameTo s k z := by
  obtain ⟨hp, hn, hm, hs, ho, hg, h1, -⟩ := h
  have hact : s.condition e = .active := State.condition_active hp (by rw [hn]; decide) hm hs
  obtain ⟨z, hr, hz⟩ := receive_inward (k := k) hg hp hact ho fun p s => s.handPetition e os p
  have hzn : z.form.node = .lead := hz.passed.node.trans hn
  have ha : z.fromApplicant os = false := by
    have : (petitionSource os == 0) = false := beq_eq_false_iff_ne.mpr (by omega)
    unfold State.fromApplicant
    rw [this]
    simp
  have hh : z.handPetition e os .inward = z.takePetition e os := by
    refine (if_pos hzn).trans ?_
    rw [ha]
    rfl
  exact ⟨z, (exec_petitionRecordReceived s k e os).trans (hr.trans (congrArg _ hh)), hz⟩

/-- What the leader checks of such a petition before its body (R90). -/
theorem petition_placed {s z : State} {e : EndId} {os : List Octet} {en : Entry} {k : Nat} (h : PetitionComes s e os en k)
    (hz : CameTo s k z) : (z.arrivalCell.isSome && z.arrivalCell == some (petitionCell (petitionSource os))
      && decide (1 ≤ petitionSource os) && decide (petitionSource os ≤ z.n) && petitionSource os != z.ownPosition
      && (entryAt z.entries (petitionSource os)).map Entry.tag == some (petitionSender os)) = true := by
  obtain ⟨-, -, -, -, -, -, h1, h2, h3, h4, h5, h6⟩ := h
  have hc : z.arrivalCell = some (petitionCell (petitionSource os)) :=
    (congrArg State.arrivalCell hz.interior :).trans h6
  rw [hc, hz.passed.n, hz.passed.ownPosition, hz.passed.entries, h4]
  simp [h1, h2, h3, h5]

/-- The sender heard: what the leader's petition unit is before the want is dispatched (R90, R92). -/
theorem State.hearSender_pet (s : State) (t : Tag) : (s.hearSender t).pet = s.pet.hearing t := rfl

/-- A petition that carries a want of a member reaches the dispatch by kind (R90). -/
theorem want_dispatched {s : State} {e : EndId} {os : List Octet} {en : Entry} {b : PetitionBody} {k : Nat}
    (h : WantComes s e os en b k) (hb : b.kind ≠ .enroll) : ∃ z : State, exec (.petitionRecordReceived k e os) s =
      finish (s.recordCame k e os) ((z.dispatch en.tag b).getD z) ∧ z.pet = (s.advance k).pet.hearing en.tag
      ∧ z.form = (s.advance k).form ∧ z.store = s.store := by
  obtain ⟨hc, hk, he, hd, hf⟩ := h
  obtain ⟨z, hx, hz⟩ := petition_judged hc
  have htag : petitionSender os = en.tag := by obtain ⟨-, -, -, -, -, -, -, -, -, -, h5, -⟩ := hc; exact h5.symm
  have hbody : z.petitionBody b.kind os = some b := by
    unfold State.petitionBody
    rw [he]
    dsimp only
    rw [hd, Option.filter_some, hz.passed.n, hf]
    rfl
  have hplaced := petition_placed hc hz
  have ht : z.takePetition e os = ((z.hearSender en.tag).dispatch en.tag b).getD (z.hearSender en.tag) := by
    unfold State.takePetition
    dsimp only
    rw [hk]
    dsimp only
    rw [if_pos (by rw [hplaced]; simpa using hb), hbody, htag]
  refine ⟨z.hearSender en.tag, hx.trans (congrArg _ ht), ?_, hz.form, hz.passed.store⟩
  rw [State.hearSender_pet, hz.pet]

end Sys2Proof.Machine
end

section
/-! PROOFS. The merged table of a join and the signals of its joint car (R64, R99, R105 to R110). -/

namespace Sys2Proof.Machine

open Sys2Proof

/-! ## Entries of a numbered list (R47) -/

theorem entryAt_numbered {ens : List Entry} {k : Nat} (h : ens.map Entry.position = List.range' k ens.length) (i : Nat) :
    entryAt ens (k + i) = ens[i]? := by
  induction ens generalizing k i with
  | nil => rfl
  | cons en ens ih =>
    rw [List.map_cons, List.length_cons, List.range'_succ] at h
    obtain ⟨hp, hr⟩ := List.cons.inj h
    cases i with
    | zero => exact List.find?_cons_of_pos (by simp [hp])
    | succ i =>
      refine (List.find?_cons_of_neg (by simp [hp])).trans ?_
      have := ih hr i
      rw [show k + 1 + i = k + (i + 1) by omega] at this
      exact this

/-- A position held in a list numbered from 1 is an index and one. -/
theorem index_of_entryAt {ens : List Entry} (h : ens.map Entry.position = List.range' 1 ens.length) {p : Nat} {x : Entry}
    (hx : entryAt ens p = some x) : ∃ i, p = i + 1 ∧ i < ens.length ∧ ens[i]? = some x := by
  have hp : x.position = p := by simpa using List.find?_some hx
  have hm : p ∈ List.range' 1 ens.length := by
    rw [← h, ← hp]
    exact List.mem_map_of_mem (List.mem_of_find?_eq_some hx)
  obtain ⟨h1, h2⟩ := List.mem_range'_1.mp hm
  refine ⟨p - 1, by omega, by omega, ?_⟩
  rw [← entryAt_numbered h (p - 1), ← hx]
  congr 1
  omega

theorem renumberFrom_getElem (ens : List Entry) (k i : Nat) :
    (renumberFrom k ens)[i]? = ens[i]?.map fun en => { en with position := k + i } := by
  induction ens generalizing k i with
  | nil => rfl
  | cons en ens ih =>
    cases i with
    | zero => rfl
    | succ i =>
      refine (ih (k + 1) i).trans ?_
      rw [show k + 1 + i = k + (i + 1) by omega]
      rfl

theorem renumberFrom_positions (ens : List Entry) (k : Nat) :
    (renumberFrom k ens).map Entry.position = List.range' k ens.length := by
  induction ens generalizing k with
  | nil => rfl
  | cons en ens ih => exact congrArg (List.cons k) (ih (k + 1))

theorem mapAt_positions {f : Entry → Entry} (hf : ∀ en, (f en).position = en.position) (p : Nat) (ens : List Entry) :
    (mapAt p f ens).map Entry.position = ens.map Entry.position := by
  unfold mapAt
  rw [List.map_map]
  refine List.map_congr_left fun en _ => ?_
  show Entry.position (if _ then _ else _) = _
  split
  · exact hf en
  · rfl

theorem mapAt_comm {f g : Entry → Entry} (hf : ∀ en, (f en).position = en.position) (hg : ∀ en, (g en).position = en.position)
    {p q : Nat} (h : p ≠ q) (ens : List Entry) : mapAt p f (mapAt q g ens) = mapAt q g (mapAt p f ens) := by
  unfold mapAt
  rw [List.map_map, List.map_map]
  refine List.map_congr_left fun en _ => ?_
  by_cases hp : en.position = p
  · have hq : ¬ en.position = q := fun hq => h (hp.symm.trans hq)
    simp [hp, hf, h]
  · by_cases hq : en.position = q
    · simp [hq, hg, Ne.symm h]
    · simp [hp, hq]

/-! ## The merged table (R64) -/

/-- Two runs joined: numbered anew, the two ends at the joint of one kind. -/
def joined (kind : CouplingKind) (l1 l2 : List Entry) : List Entry :=
  mapAt (l1.length + 1) (Entry.setRefKind kind) (mapAt l1.length (Entry.setFarKind kind) (renumber (l1 ++ l2)))

theorem joined_positions (kind : CouplingKind) (l1 l2 : List Entry) :
    (joined kind l1 l2).map Entry.position = List.range' 1 (l1.length + l2.length) := by
  unfold joined
  rw [mapAt_positions (f := Entry.setRefKind kind) (fun _ => rfl), mapAt_positions (f := Entry.setFarKind kind) (fun _ => rfl),
    renumber, renumberFrom_positions, List.length_append]

theorem joined_length (kind : CouplingKind) (l1 l2 : List Entry) :
    (joined kind l1 l2).length = l1.length + l2.length := by
  have := congrArg List.length (joined_positions kind l1 l2)
  rwa [List.length_map, List.length_range'] at this

theorem entryAt_joined (kind : CouplingKind) (l1 l2 : List Entry) (i : Nat) :
    entryAt (joined kind l1 l2) (i + 1) = (l1 ++ l2)[i]?.map fun en => { en with
      position := i + 1
      farKind := if i + 1 = l1.length then kind else en.farKind
      refKind := if i = l1.length then kind else en.refKind } := by
  have hp := joined_positions kind l1 l2
  rw [← joined_length kind l1 l2] at hp
  rw [Nat.add_comm i 1, entryAt_numbered hp i]
  unfold joined mapAt
  rw [List.getElem?_map, List.getElem?_map, renumber, renumberFrom_getElem, Option.map_map, Option.map_map]
  refine congrArg (fun f => Option.map f (l1 ++ l2)[i]?) (funext fun en => ?_)
  have hpos : ({ en with position := 1 + i } : Entry).position = 1 + i := rfl
  simp only [Function.comp_apply]
  by_cases h1 : 1 + i = l1.length
  · have h2 : ¬ i = l1.length := by omega
    have h3 : ¬ 1 + i = l1.length + 1 := by omega
    simp [h1, h2, Entry.setFarKind]
  · by_cases h2 : i = l1.length
    · have h3 : 1 + i = l1.length + 1 := by omega
      simp [h2, Nat.add_comm 1 l1.length, Entry.setRefKind]
    · have h3 : ¬ 1 + i = l1.length + 1 := by omega
      simp [h1, h2, h3]

theorem mergeTables_eq (pr : List Entry) (far : Bool) (ab : List Entry) (first fixed : Bool) :
    mergeTables pr far ab first fixed =
      let kind : CouplingKind := if fixed then .fixed else .service
      let turned := (ab.map Entry.turn).reverse
      if far then joined kind pr (if first then ab else turned) else joined kind (if first then turned else ab) pr := by
  have hl : ∀ b : Bool, (if b then (ab.map Entry.turn).reverse else ab).length = ab.length := by
    intro b
    cases b <;> simp
  unfold mergeTables joined
  dsimp only
  rw [hl]
  cases far
  · exact mapAt_comm (f := Entry.setFarKind _) (g := Entry.setRefKind _) (fun _ => rfl) (fun _ => rfl)
      (Nat.ne_of_lt (Nat.lt_succ_self _)) _
  · rfl

/-- The absorbed run turned round: entry `j` stands at `m - 1 - j`. -/
theorem turned_getElem {ab : List Entry} {j : Nat} {y : Entry} (hj : j < ab.length) (hy : ab[j]? = some y) :
    ((ab.map Entry.turn).reverse)[ab.length - 1 - j]? = some y.turn := by
  rw [List.getElem?_reverse (by rw [List.length_map]; omega), List.length_map,
    show ab.length - 1 - (ab.length - 1 - j) = j by omega, List.getElem?_map, hy]
  rfl

/-- The merged table, entry by entry (R64). -/
theorem mergeTables_entries (pr ab : List Entry) (far first fixed : Bool)
    (hpr : pr.map Entry.position = List.range' 1 pr.length) (hab : ab.map Entry.position = List.range' 1 ab.length) :
    let n := pr.length
    let m := ab.length
    let kind : CouplingKind := if fixed then .fixed else .service
    let merged := mergeTables pr far ab first fixed
    let flipped := far ≠ first
    merged.map Entry.position = List.range' 1 (n + m)
      ∧ (∀ p x, entryAt pr p = some x →
        let at_ := if far then p else p + m
        entryAt merged at_ = some { x with
          position := at_
          farKind := if far ∧ p = n then kind else x.farKind
          refKind := if ¬ far ∧ p = 1 then kind else x.refKind })
      ∧ (∀ q y, entryAt ab q = some y →
        let at_ := if far then (if first then n + q else n + m + 1 - q) else (if first then m + 1 - q else q)
        let z := if flipped then
          { y with orientation := y.orientation.flip, refKind := y.farKind, farKind := y.refKind } else y
        entryAt merged at_ = some { z with
          position := at_
          refKind := if far ∧ at_ = n + 1 then kind else z.refKind
          farKind := if ¬ far ∧ at_ = m then kind else z.farKind }) := by
  intro n m kind merged flipped
  have hm : merged = _ := mergeTables_eq pr far ab first fixed
  let turned := (ab.map Entry.turn).reverse
  have hturn : turned.length = m := by simp [turned, m]
  have hlen : ∀ b : Bool, (if b then turned else ab).length = m := by
    intro b
    cases b
    · rfl
    · exact hturn
  have hlen' : ∀ b : Bool, (if b then ab else turned).length = m := by
    intro b
    cases b
    · exact hturn
    · rfl
  refine ⟨?_, fun p x hx => ?_, fun q y hy => ?_⟩
  · rw [hm]
    cases far
    · show (joined kind (if first then turned else ab) pr).map _ = _
      rw [joined_positions, hlen, Nat.add_comm]
    · show (joined kind pr (if first then ab else turned)).map _ = _
      rw [joined_positions, hlen']
  · obtain ⟨i, rfl, hi, hxi⟩ := index_of_entryAt hpr hx
    rw [hm]
    cases far
    · show entryAt (joined kind (if first then turned else ab) pr) (i + 1 + m) = _
      rw [show i + 1 + m = (m + i) + 1 by omega, entryAt_joined, hlen, List.getElem?_append_right (by rw [hlen]; omega),
        hlen, show m + i - m = i by omega, hxi]
      have h1 : ¬ m + i + 1 = m := by omega
      by_cases h2 : i = 0 <;> simp [h1, h2]
    · show entryAt (joined kind pr (if first then ab else turned)) (i + 1) = _
      rw [entryAt_joined, List.getElem?_append_left hi, hxi]
      have h1 : ¬ i = n := by omega
      simp [h1, n]
  · obtain ⟨j, rfl, hj, hyj⟩ := index_of_entryAt hab hy
    have hback := turned_getElem hj hyj
    rw [hm]
    cases far <;> cases first
    · show entryAt (joined kind ab pr) (j + 1) = _
      rw [entryAt_joined, List.getElem?_append_left hj, hyj]
      have h1 : ¬ j = m := by omega
      simp [flipped, h1, m]
    · show entryAt (joined kind turned pr) (m + 1 - (j + 1)) = _
      rw [show m + 1 - (j + 1) = (m - 1 - j) + 1 by omega, entryAt_joined,
        List.getElem?_append_left (by rw [hturn]; omega), hback, hturn]
      have h1 : ¬ m - 1 - j = m := by omega
      simp [flipped, h1, Entry.turn]
    · show entryAt (joined kind pr turned) (n + m + 1 - (j + 1)) = _
      rw [show n + m + 1 - (j + 1) = (n + (m - 1 - j)) + 1 by omega, entryAt_joined,
        List.getElem?_append_right (by omega), show n + (m - 1 - j) - pr.length = m - 1 - j by omega, hback]
      have h1 : ¬ n + (m - 1 - j) + 1 = pr.length := by omega
      have h2 : n + (m - 1 - j) = pr.length ↔ m - 1 - j = 0 := by omega
      simp [flipped, h1, h2, Entry.turn]
    · show entryAt (joined kind pr ab) (n + (j + 1)) = _
      rw [show n + (j + 1) = (n + j) + 1 by omega, entryAt_joined,
        List.getElem?_append_right (by omega), show n + j - pr.length = j by omega, hyj]
      have h1 : ¬ n + j + 1 = n := by omega
      simp [flipped, h1, n]

/-! ## The joint car's signals (R105, R109) -/

/-- A want that the leader answers at once, by a reasoned answer to the sender (R90). -/
theorem State.answered_push {s : State} {a : Answer} (g : State → State) (hr : a.isOwn s.ownTag = false)
    (hl : s.pet.answers.length < 16) (hs : (g s).store = s.store) (ha : (g s).pet.answers = s.pet.answers) :
    s.answered [a] g = some ((g s).pushAnswer a) := by
  rw [State.answered_of_room (State.hasRoom_one hl) g]
  exact congrArg some (State.answer_push (by rw [State.ownTag_congr hs]; exact hr) (by rw [ha]; exact hl))

/-- A want whose answer does not wait is dispatched by its kind (R90, R96). -/
theorem State.answerWaits_congr {s z : State} (h : z.pet.answers = s.pet.answers) (t : Tag) (a : Bool) (k : WantKind)
    (e : Option EndId) : z.answerWaits t a k e = s.answerWaits t a k e := by
  rw [State.answerWaits, State.answerWaits, h]

theorem signalFrom_iff (j : JoinProgress) (role : JoinRole) (ph : JoinPhase) (t : Tag) (e : EndId) :
    j.signalFrom role ph t e = true ↔ j.role = role ∧ j.phase = ph ∧ j.reporter = t ∧ j.reporterEnd = e := by
  simp [JoinProgress.signalFrom, and_assoc]

/-- A signal that matches no join in progress is answered STALE (R105, R109). -/
theorem takeForeignQuiet_stale {z : State} {t : Tag} {x : EndId} (c : Nat) (hd : Heading) (hr : RoomFor z t)
    (h : ∀ j, z.pet.join = some j → j.signalFrom .principal .admitting t x = false) :
    z.takeForeignQuiet t x c hd = some (z.pushAnswer (answerTo t .foreignQuiet (some x) .stale none)) := by
  have hs := State.answered_push (s := z) (a := answerTo t .foreignQuiet (some x) .stale none) id
    (by rw [answerTo_isOwn]; exact beq_eq_false_iff_ne.mpr hr.1) hr.2 rfl rfl
  unfold State.takeForeignQuiet
  cases hj : z.pet.join with
  | none => exact hs
  | some j => exact (if_neg (by rw [h j hj]; decide)).trans hs

theorem takePrincipalReady_stale {z : State} {t : Tag} {x : EndId} (hr : RoomFor z t)
    (h : ∀ j, z.pet.join = some j → j.signalFrom .absorbed .awaitReady t x = false) :
    z.takePrincipalReady t x = some (z.pushAnswer (answerTo t .principalReady (some x) .stale none)) := by
  have hs := State.answered_push (s := z) (a := answerTo t .principalReady (some x) .stale none) id
    (by rw [answerTo_isOwn]; exact beq_eq_false_iff_ne.mpr hr.1) hr.2 rfl rfl
  unfold State.takePrincipalReady
  cases hj : z.pet.join with
  | none => exact hs
  | some j => exact (if_neg (by rw [h j hj]; decide)).trans hs

/-- A matching FOREIGN_QUIET announces the merged table (R99, R105, R106). -/
theorem takeForeignQuiet_fits {z : State} {t : Tag} {x : EndId} {j : JoinProgress} (c : Nat) (hd : Heading)
    (hr : RoomFor z t) (hj : z.pet.join = some j) (h : j.signalFrom .principal .admitting t x = true) :
    z.takeForeignQuiet t x c hd = some ((({ z with pet := { z.pet with join := some { j with
        phase := .announce, foreignHolder := foreignHolderOf j.report.entries c hd } } } : State).announce
          (z.mergedEntries j)).pushAnswer (answerTo t .foreignQuiet (some x) .done none)) := by
  unfold State.takeForeignQuiet
  rw [hj]
  dsimp only
  rw [if_pos h]
  exact State.answered_push _ (by rw [answerTo_isOwn]; exact beq_eq_false_iff_ne.mpr hr.1) hr.2 rfl rfl

/-- A matching PRINCIPAL_READY begins the YIELD (R109, R110). -/
theorem takePrincipalReady_fits {z : State} {t : Tag} {x : EndId} {j : JoinProgress} (hr : RoomFor z t)
    (hj : z.pet.join = some j) (h : j.signalFrom .absorbed .awaitReady t x = true) :
    z.takePrincipalReady t x = some (({ z with
        pet := { z.pet with join := some { j with phase := .yielding } }
        form := { z.form with procedure := some .yielding, countdown := 4, countdownFresh := true,
                              otherTag := some j.report.header.leader } } : State).pushAnswer
          (answerTo t .principalReady (some x) .done none)) := by
  unfold State.takePrincipalReady
  rw [hj]
  dsimp only
  rw [if_pos h]
  exact State.answered_push _ (by rw [answerTo_isOwn]; exact beq_eq_false_iff_ne.mpr hr.1) hr.2 rfl rfl

/-- The leader as it answers a want whose answer does not wait (R90, R96). -/
structure Hears (s : State) (t : Tag) (b : PetitionBody) (k : Nat) (z : State) : Prop where
  pet : z.pet = (s.advance k).pet.hearing t
  form : z.form = (s.advance k).form
  store : z.store = s.store
  free : z.answerWaits t false b.kind b.wantEnd = false
  answers : z.pet.answers = s.pet.answers

section
variable {s z : State} {t : Tag} {b : PetitionBody} {k : Nat} (h : Hears s t b k z)
include h

theorem Hears.ownTag : z.ownTag = s.ownTag := State.ownTag_congr h.store

theorem Hears.room (hr : RoomFor s t) : RoomFor z t := ⟨by rw [h.ownTag]; exact hr.1, by rw [h.answers]; exact hr.2⟩

theorem Hears.join : z.pet.join = s.pet.join := by
  rw [h.pet]
  exact (congrArg PetitionUnit.join (Passed.advance s k).pet :)

theorem Hears.current : z.form.current = s.form.current := by rw [h.form]; exact (Passed.advance s k).current

theorem Hears.entries : z.entries = s.entries := by rw [State.entries, State.entries, h.current]

theorem Hears.settings : z.settings = s.settings := by rw [State.settings, State.settings, h.store]

theorem Hears.nextEpoch : z.nextEpoch = s.nextEpoch := by
  rw [← (Passed.advance s k).nextEpoch, State.nextEpoch, State.nextEpoch, h.form]

/-- The dispatch by kind is past its check for a waiting answer (R90). -/
theorem Hears.skips : (b.kind ≠ .none && z.answerWaits t false b.kind b.wantEnd) = false := by
  rw [h.free, Bool.and_false]

end

theorem want_heard {s : State} {e : EndId} {os : List Octet} {en : Entry} {b : PetitionBody} {k : Nat}
    (h : WantComes s e os en b k) (hw : s.answerWaits en.tag false b.kind b.wantEnd = false) (hb : b.kind ≠ .enroll) :
    ∃ z : State, exec (.petitionRecordReceived k e os) s = finish (s.recordCame k e os) ((z.dispatch en.tag b).getD z)
      ∧ Hears s en.tag b k z := by
  obtain ⟨z, hx, hp, hf, hs⟩ := want_dispatched h hb
  have ha : z.pet.answers = s.pet.answers := by
    rw [hp]
    exact (congrArg PetitionUnit.answers (Passed.advance s k).pet :)
  exact ⟨z, hx, hp, hf, hs, (State.answerWaits_congr ha _ _ _ _).trans hw, ha⟩

theorem Hears.dispatch_foreignQuiet {s z : State} {t : Tag} {x : EndId} {c : Nat} {hd : Heading} {k : Nat}
    (h : Hears s t (.foreignQuiet x c hd) k z) : z.dispatch t (.foreignQuiet x c hd) = z.takeForeignQuiet t x c hd :=
  if_neg (by rw [h.skips]; decide)

theorem Hears.dispatch_principalReady {s z : State} {t : Tag} {x : EndId} {k : Nat}
    (h : Hears s t (.principalReady x) k z) : z.dispatch t (.principalReady x) = z.takePrincipalReady t x :=
  if_neg (by rw [h.skips]; decide)

/-- The merged table of a join whose joint car is in the table (R64, R106). -/
theorem State.mergedEntries_of {z : State} {j : JoinProgress} {en : Entry} (h : entryOf z.entries j.reporter = some en) :
    z.mergedEntries j = grantRates z.settings.period (mergeTables z.entries
      (decide (en.orientation.sideOf j.reporterEnd = .far)) j.report.entries
      (decide (if j.report.header.size = 1 then j.report.header.adjSide = .ref else j.report.header.adjPosition = 1))
      j.report.header.fixed) := by
  unfold State.mergedEntries
  rw [h]
  dsimp only
  have hfar : (en.orientation.sideOf j.reporterEnd == Side.far) = decide (en.orientation.sideOf j.reporterEnd = .far) :=
    beq_eq_decide _ _
  have hfirst : (if j.report.header.size = 1 then j.report.header.adjSide == .ref else j.report.header.adjPosition == 1)
      = decide (if j.report.header.size = 1 then j.report.header.adjSide = .ref else j.report.header.adjPosition = 1) := by
    split <;> exact beq_eq_decide _ _
  rw [hfar, hfirst]

/-- A FOREIGN_QUIET as the leader takes it (R105). -/
theorem foreignQuiet_told {s : State} {e x : EndId} {os : List Octet} {en : Entry} {c : Nat} {hd : Heading} {k : Nat}
    (h : WantComes s e os en (.foreignQuiet x c hd) k) (ha : Answerable s en.tag (.foreignQuiet x c hd)) :
    let p := (s.advance k).pet.hearing en.tag
    let said := fun o => s.pet.answers ++ [answerTo en.tag .foreignQuiet (some x) o none]
    ∃ t, exec (.petitionRecordReceived k e os) s = .next t
      ∧ ((∀ j, s.pet.join = some j → j.signalFrom .principal .admitting en.tag x = false) →
        t.pet = { p with answers := said .stale } ∧ t.form = (s.advance k).form)
      ∧ (∀ j, s.pet.join = some j → j.signalFrom .principal .admitting en.tag x = true →
        entryOf s.entries en.tag = some en →
        t.pet = { p with answers := said .done, join := some { j with
            phase := .announce, foreignHolder := foreignHolderOf j.report.entries c hd } }
          ∧ t.form.procedure = some .announce ∧ t.form.current = s.form.current
          ∧ t.form.pendingT = some (Table.mk s.nextEpoch (s.mergedEntries j))) := by
  obtain ⟨z, hx, hz⟩ := want_heard h ha.1 nofun
  have hr := hz.room ha.2
  rw [hz.dispatch_foreignQuiet] at hx
  refine ⟨_, hx, fun hn => ?_, fun j hj hf hen => ?_⟩
  · rw [takeForeignQuiet_stale c hd hr fun j hj => hn j (hz.join.symm.trans hj), Option.getD_some]
    refine ⟨?_, (settle_form _ _).trans hz.form⟩
    rw [settle_pet, ← hz.pet, ← hz.answers]
    rfl
  · have hrep : j.reporter = en.tag := ((signalFrom_iff _ _ _ _ _).mp hf).2.2.1
    have hmerged : z.mergedEntries j = s.mergedEntries j := by
      have he : entryOf s.entries j.reporter = some en := by rw [hrep]; exact hen
      rw [State.mergedEntries_of he, State.mergedEntries_of (by rw [hz.entries]; exact he), hz.entries, hz.settings]
    rw [takeForeignQuiet_fits c hd hr (hz.join.trans hj) hf, Option.getD_some]
    refine ⟨?_, ?_, ?_, ?_⟩
    · rw [settle_pet, ← hz.pet, ← hz.answers]
      rfl
    · rw [settle_form]
      rfl
    · rw [settle_form]
      exact hz.current
    · rw [settle_form, ← hmerged, ← hz.nextEpoch]
      rfl

/-- A PRINCIPAL_READY as the leader takes it (R109, R110). -/
theorem principalReady_told {s : State} {e x : EndId} {os : List Octet} {en : Entry} {k : Nat}
    (h : WantComes s e os en (.principalReady x) k) (ha : Answerable s en.tag (.principalReady x)) :
    let p := (s.advance k).pet.hearing en.tag
    let said := fun o => s.pet.answers ++ [answerTo en.tag .principalReady (some x) o none]
    ∃ t, exec (.petitionRecordReceived k e os) s = .next t
      ∧ ((∀ j, s.pet.join = some j → j.signalFrom .absorbed .awaitReady en.tag x = false) →
        t.pet = { p with answers := said .stale } ∧ t.form = (s.advance k).form)
      ∧ (∀ j, s.pet.join = some j → j.signalFrom .absorbed .awaitReady en.tag x = true →
        t.pet = { p with answers := said .done, join := some { j with phase := .yielding } }
          ∧ t.form.procedure = some .yielding ∧ t.form.countdown = 4
          ∧ t.form.otherTag = some j.report.header.leader ∧ t.form.current = s.form.current
          ∧ t.form.pendingT = s.form.pendingT) := by
  obtain ⟨z, hx, hz⟩ := want_heard h ha.1 nofun
  have hr := hz.room ha.2
  rw [hz.dispatch_principalReady] at hx
  refine ⟨_, hx, fun hn => ?_, fun j hj hf => ?_⟩
  · rw [takePrincipalReady_stale hr fun j hj => hn j (hz.join.symm.trans hj), Option.getD_some]
    refine ⟨?_, (settle_form _ _).trans hz.form⟩
    rw [settle_pet, ← hz.pet, ← hz.answers]
    rfl
  · rw [takePrincipalReady_fits hr (hz.join.trans hj) hf, Option.getD_some, settle_pet, settle_form]
    refine ⟨?_, rfl, rfl, rfl, hz.current, ?_⟩
    · rw [← hz.pet, ← hz.answers]
      rfl
    · show z.form.pendingT = _
      rw [hz.form, (Passed.advance s k).form]

/-- Settles O50. -/
theorem joinDeadlinesAbandon : Obligations.JoinDeadlinesAbandon := by
  refine ⟨fun s j hp hj hq hr => ⟨fun hl => ?_, fun hl => ?_⟩, fun s e x os en c hd k h ha => ?_,
    fun s e x os en k h ha => ?_, fun pr ab far first fixed _ _ hpr hab => mergeTables_entries pr ab far first fixed hpr hab⟩
  · dsimp only
    rw [exec_principalJoinDeadline, execPrincipalJoinDeadline]
    exact abandoned_told hp hl hj hq hr
  · dsimp only
    rw [exec_absorbedJoinDeadline, execAbsorbedJoinDeadline]
    exact abandoned_told hp hl hj hq hr
  · obtain ⟨t, hx, hs, hf⟩ := foreignQuiet_told h ha
    refine ⟨t, hx, fun hn => hs fun j hj => ?_, fun j hj hm hen => ?_⟩
    · exact Bool.eq_false_iff.mpr fun hc => hn j hj ((signalFrom_iff _ _ _ _ _).mp hc)
    · obtain ⟨hpet, hproc, hcur, hpend⟩ := hf j hj ((signalFrom_iff _ _ _ _ _).mpr hm) hen
      obtain ⟨-, -, hrep, hend⟩ := hm
      rw [State.mergedEntries_of (by rw [hrep]; exact hen), hend] at hpend
      exact ⟨hpet, hproc, hcur, hpend⟩
  · obtain ⟨t, hx, hs, hf⟩ := principalReady_told h ha
    refine ⟨t, hx, fun hn => hs fun j hj => ?_, fun j hj hm => hf j hj ((signalFrom_iff _ _ _ _ _).mpr hm)⟩
    exact Bool.eq_false_iff.mpr fun hc => hn j hj ((signalFrom_iff _ _ _ _ _).mp hc)

end Sys2Proof.Machine
end

section
/-! PROOFS. A leader's petitions: what clears the silence count (R90, R92, R124). -/

namespace Sys2Proof.Machine

open Sys2Proof

/-! ## An ENROLL of a car in the table

The leader judges a petition of kind ENROLL as one of an applicant only: from a car of the table it is passed by, its
sender not heard, also where an answer of that kind waits for it. -/

theorem State.takePetition_enroll {s : State} {e : EndId} {os : List Octet} (h : petitionKind os = some .enroll) :
    s.takePetition e os = s := by
  unfold State.takePetition
  rw [h]
  exact if_neg (by simp)

theorem enroll_passed_by {s : State} {e : EndId} {os : List Octet} {en : Entry} {k : Nat} (h : PetitionComes s e os en k)
    (hk : petitionKind os = some .enroll) :
    ∃ t, exec (.petitionRecordReceived k e os) s = .next t ∧ t.pet = (s.advance k).pet := by
  obtain ⟨z, hx, hz⟩ := petition_judged h
  rw [State.takePetition_enroll hk] at hx
  exact ⟨_, hx, (settle_pet _ _).trans hz.pet⟩

/-- The would-be entry of the ENROLL, and the car in the table that sends it. -/
def strayEntry : Entry :=
  { position := 2, tag := 6, unit := 0, orientation := .facing, refKind := .outer, farKind := .service, cab := false,
    channels := [] }
def strayCar : Entry := { strayEntry with position := 1, tag := 5 }

def strayBody : PetitionBody := .enroll (.after 1) strayEntry
def strayOctets : List Octet := petitionRecord 1 5 strayBody .ref

/-- A leader in the petition cell of position 1, whose car has been silent for one round. -/
def strayLeader : State :=
  { State.reset with
    form := { FormationUnit.initial with node := .lead, current := some { epoch := 1, entries := [strayCar] } }
    timer := { CycleTimer.initial with lock := .generating, counter := 140 }
    planner := { Planner.initial with inForce := some { epoch := 1, size := 1, period := 2000, slots := 8, cells := [] } }
    pet := { PetitionUnit.initial with
      silence := [{ tag := 5, count := 1, heard := false, owed := false }]
      answers := [answerTo 5 .enroll none .refused none] } }

theorem strayOctets_good : goodRecordOf kindPetition strayOctets = true :=
  goodRecordOf_sealRecord rfl rfl rfl

theorem stray_comes : PetitionComes strayLeader .e1 strayOctets strayCar 0 :=
  ⟨rfl, rfl, rfl, rfl, rfl, strayOctets_good, by decide, by decide, by decide, by decide, by decide, by decide⟩

theorem stray_wants : WantComes strayLeader .e1 strayOctets strayCar strayBody 0 :=
  ⟨stray_comes, by decide, by decide, by decide, rfl⟩

/-- Refutes O44: a waiting answer of kind ENROLL for a car of the table, and that car's ENROLL; its silence count
stays at 1. -/
theorem not_petitionClearsSilence : ¬ Obligations.PetitionClearsSilence := by
  intro ⟨_, hrepeated, _⟩
  obtain ⟨t, hx, hpet, -⟩ := hrepeated strayLeader .e1 strayOctets strayCar strayBody 0 stray_wants rfl
  obtain ⟨t', hx', hpet'⟩ := enroll_passed_by stray_comes (by decide)
  have ht : t = t' := by
    rw [hx'] at hx
    exact (Host.Outcome.next.inj hx).symm
  rw [ht, hpet'] at hpet
  exact absurd (congrArg PetitionUnit.silence hpet) (by decide)

end Sys2Proof.Machine
end

section
/-! PROOFS. Assemblies of tables: entries stored, records stored, tables complete (R55). -/

namespace Sys2Proof.Machine

open Sys2Proof

/-! ## Entries stored at their positions -/

/-- An entry stored stands at its position, and the entries at other positions stand where they did. -/
theorem entryAt_putEntry (en : Entry) (ens : List Entry) (q : Nat) :
    entryAt (putEntry en ens) q = if q = en.position then some en else entryAt ens q := by
  have first : ∀ (l : List Entry), entryAt (en :: l) q = if q = en.position then some en else entryAt l q := by
    intro l
    by_cases h : q = en.position
    · exact (List.find?_cons_of_pos (by simp [h])).trans (if_pos h).symm
    · exact (List.find?_cons_of_neg (by simp [Ne.symm h])).trans (if_neg h).symm
  induction ens with
  | nil => exact first []
  | cons x rest ih =>
    unfold putEntry
    by_cases h1 : en.position < x.position
    · rw [if_pos h1]
      exact first _
    · rw [if_neg h1]
      by_cases h2 : en.position = x.position
      · rw [if_pos h2, first]
        by_cases hq : q = en.position
        · rw [if_pos hq, if_pos hq]
        · have hx : ¬ x.position = q := by omega
          rw [if_neg hq, if_neg hq]
          exact (List.find?_cons_of_neg (by simp [hx])).symm
      · rw [if_neg h2]
        unfold entryAt at ih ⊢
        rw [List.find?_cons, List.find?_cons]
        by_cases hx : x.position = q
        · have hq : ¬ q = en.position := by omega
          simp [hx, hq]
        · simp only [beq_eq_false_iff_ne.mpr hx]
          exact ih

theorem entryAt_eq_none {ens : List Entry} {q : Nat} (h : q ∉ ens.map Entry.position) : entryAt ens q = none := by
  refine List.find?_eq_none.mpr fun x hx => ?_
  rw [beq_iff_eq]
  exact fun hc => h (hc ▸ List.mem_map_of_mem hx)

/-- Entries of a record stored one after the other: the record's stand at their positions (R141). -/
theorem entryAt_putEntries {new : List Entry} (h : (new.map Entry.position).Nodup) (old : List Entry) (q : Nat) :
    entryAt (new.foldl (fun l en => putEntry en l) old) q = (entryAt new q).orElse fun _ => entryAt old q := by
  induction new generalizing old with
  | nil => rfl
  | cons en new ih =>
    rw [List.map_cons, List.nodup_cons] at h
    rw [List.foldl_cons, ih h.2, entryAt_putEntry]
    by_cases hq : q = en.position
    · have hn : entryAt new q = none := entryAt_eq_none (by rw [hq]; exact h.1)
      have hf : entryAt (en :: new) q = some en := List.find?_cons_of_pos (by simp [hq])
      rw [hn, hf, if_pos hq]
      rfl
    · have hf : entryAt (en :: new) q = entryAt new q := List.find?_cons_of_neg (by simp [Ne.symm hq])
      rw [if_neg hq, hf]

/-- In position order an entry replaces the one at its position, and no other. -/
theorem mem_putEntry {en : Entry} {ens : List Entry} (h : (ens.map Entry.position).Pairwise (· < ·)) (x : Entry) :
    x ∈ putEntry en ens ↔ x = en ∨ (x ∈ ens ∧ x.position ≠ en.position) := by
  induction ens with
  | nil => simp [putEntry]
  | cons y rest ih =>
    rw [List.map_cons, List.pairwise_cons] at h
    obtain ⟨hy, hr⟩ := h
    have above : ∀ x ∈ rest, y.position < x.position := fun x hx => hy _ (List.mem_map_of_mem hx)
    unfold putEntry
    by_cases h1 : en.position < y.position
    · rw [if_pos h1, List.mem_cons]
      refine or_congr_right ⟨fun hx => ⟨hx, ?_⟩, And.left⟩
      rcases List.mem_cons.mp hx with rfl | hx
      · omega
      · have := above x hx
        omega
    · rw [if_neg h1]
      by_cases h2 : en.position = y.position
      · rw [if_pos h2, List.mem_cons]
        refine or_congr_right ⟨fun hx => ⟨List.mem_cons_of_mem _ hx, ?_⟩, fun hx => ?_⟩
        · have := above x hx
          omega
        · rcases List.mem_cons.mp hx.1 with rfl | hm
          · exact absurd h2.symm hx.2
          · exact hm
      · rw [if_neg h2, List.mem_cons, ih hr, List.mem_cons]
        constructor
        · rintro (rfl | rfl | ⟨hx, hne⟩)
          · exact .inr ⟨.inl rfl, Ne.symm h2⟩
          · exact .inl rfl
          · exact .inr ⟨.inr hx, hne⟩
        · rintro (rfl | ⟨rfl | hx, hne⟩)
          · exact .inr (.inl rfl)
          · exact .inl rfl
          · exact .inr (.inr ⟨hx, hne⟩)

theorem repeatsTag_iff (ens : List Entry) : repeatsTag ens = true ↔ ¬ (ens.map Entry.tag).Nodup := by
  induction ens with
  | nil => simp [repeatsTag]
  | cons x rest ih => simp [repeatsTag, ih, holdsTag, List.nodup_cons, imp_iff_not_or]

/-- An entry stored keeps the entries of other positions in their order. -/
theorem putEntry_nodup {en : Entry} {ens : List Entry} (h : (ens.map Entry.tag).Nodup)
    (ho : (ens.map Entry.position).Pairwise (· < ·)) (he : ∀ y ∈ ens, y.tag = en.tag → y.position = en.position) :
    ((putEntry en ens).map Entry.tag).Nodup := by
  induction ens with
  | nil => simp [putEntry]
  | cons y rest ih =>
    have hmem : ∀ x ∈ y :: rest, x.position ≠ en.position → x.tag ≠ en.tag := fun x hx hp ht => hp (he x hx ht)
    rw [List.map_cons, List.pairwise_cons] at ho
    obtain ⟨hy, hr⟩ := ho
    have above : ∀ x ∈ rest, y.position < x.position := fun x hx => hy _ (List.mem_map_of_mem hx)
    unfold putEntry
    by_cases h1 : en.position < y.position
    · rw [if_pos h1, List.map_cons, List.nodup_cons]
      refine ⟨fun hc => ?_, h⟩
      obtain ⟨x, hx, ht⟩ := List.mem_map.mp hc
      refine hmem x hx ?_ ht
      rcases List.mem_cons.mp hx with rfl | hx
      · omega
      · have := above x hx
        omega
    · rw [if_neg h1]
      rw [List.map_cons, List.nodup_cons] at h
      by_cases h2 : en.position = y.position
      · rw [if_pos h2, List.map_cons, List.nodup_cons]
        refine ⟨fun hc => ?_, h.2⟩
        obtain ⟨x, hx, ht⟩ := List.mem_map.mp hc
        have := above x hx
        exact hmem x (List.mem_cons_of_mem _ hx) (by omega) ht
      · rw [if_neg h2, List.map_cons, List.nodup_cons]
        refine ⟨fun hc => ?_, ih h.2 hr fun x hx => he x (List.mem_cons_of_mem _ hx)⟩
        obtain ⟨x, hx, ht⟩ := List.mem_map.mp hc
        rcases (mem_putEntry hr x).mp hx with rfl | ⟨hx, -⟩
        · exact hmem y List.mem_cons_self (Ne.symm h2) ht.symm
        · exact h.1 (ht ▸ List.mem_map_of_mem hx)

/-! ## Records stored -/

theorem storeEntry_kept (a : Assembly) (en : Entry) : (storeEntry a en).epoch = a.epoch ∧ (storeEntry a en).size = a.size := by
  unfold storeEntry
  dsimp only
  split <;> exact ⟨rfl, rfl⟩

theorem storeEntries_kept (ens : List Entry) (a : Assembly) :
    (ens.foldl storeEntry a).epoch = a.epoch ∧ (ens.foldl storeEntry a).size = a.size := by
  induction ens generalizing a with
  | nil => exact ⟨rfl, rfl⟩
  | cons en ens ih =>
    obtain ⟨h1, h2⟩ := storeEntry_kept a en
    obtain ⟨h3, h4⟩ := ih (storeEntry a en)
    exact ⟨h3.trans h1, h4.trans h2⟩

/-- A record joins the assembly of its epoch and size, and any other starts afresh (R55). -/
theorem storeRecord_same {a : Assembly} {ep : Epoch} {size : Nat} (he : a.epoch = ep) (hs : a.size = size) (ens : List Entry) :
    storeRecord (some a) ep size ens = ens.foldl storeEntry a := by
  unfold storeRecord
  dsimp only
  rw [if_pos (by simp [he, hs])]

theorem storeRecord_fresh {a : Assembly} {ep : Epoch} {size : Nat} (h : a.epoch ≠ ep ∨ a.size ≠ size) (ens : List Entry) :
    storeRecord (some a) ep size ens = storeRecord none ep size ens := by
  unfold storeRecord
  dsimp only
  rw [if_neg (by simpa [imp_iff_not_or] using h)]

theorem storeRecord_kept (a : Option Assembly) (ep : Epoch) (size : Nat) (ens : List Entry) :
    (storeRecord a ep size ens).epoch = ep ∧ (storeRecord a ep size ens).size = size := by
  have fresh : (storeRecord none ep size ens).epoch = ep ∧ (storeRecord none ep size ens).size = size :=
    storeEntries_kept ens _
  cases a with
  | none => exact fresh
  | some a =>
    by_cases h : a.epoch = ep ∧ a.size = size
    · rw [storeRecord_same h.1 h.2]
      obtain ⟨h1, h2⟩ := storeEntries_kept ens a
      exact ⟨h1.trans h.1, h2.trans h.2⟩
    · rw [storeRecord_fresh (not_and_or.mp h)]
      exact fresh

/-- The entries of a record are stored one after the other (R55). -/
theorem storeRecord_cons (a : Option Assembly) (ep : Epoch) (size : Nat) (en : Entry) (rest : List Entry) :
    storeRecord a ep size (en :: rest) = storeRecord (some (storeRecord a ep size [en])) ep size rest := by
  obtain ⟨h1, h2⟩ := storeRecord_kept a ep size [en]
  rw [storeRecord_same h1 h2]
  rfl

theorem storeEntry_cleared {a : Assembly} {en y : Entry} (ho : (a.entries.map Entry.position).Pairwise (· < ·))
    (hy : y ∈ a.entries) (ht : y.tag = en.tag) (hp : y.position ≠ en.position) : (storeEntry a en).entries = [] := by
  have hr : repeatsTag (putEntry en a.entries) = true := by
    rw [repeatsTag_iff]
    intro hn
    have h1 : y ∈ putEntry en a.entries := (mem_putEntry ho y).mpr (.inr ⟨hy, hp⟩)
    have h2 : en ∈ putEntry en a.entries := (mem_putEntry ho en).mpr (.inl rfl)
    exact hp (congrArg Entry.position (List.inj_on_of_nodup_map hn h1 h2 ht))
  unfold storeEntry
  dsimp only
  rw [if_pos hr]

theorem storeEntry_stored {a : Assembly} {en : Entry} (hn : (a.entries.map Entry.tag).Nodup)
    (ho : (a.entries.map Entry.position).Pairwise (· < ·))
    (he : ∀ y ∈ a.entries, y.tag = en.tag → y.position = en.position) :
    (storeEntry a en).entries = putEntry en a.entries := by
  unfold storeEntry
  dsimp only
  rw [if_neg (by rw [repeatsTag_iff]; exact not_not_intro (putEntry_nodup hn ho he))]

/-! ## Tables complete -/

/-- An assembly holds the entries from 1 to its size. -/
def Assembly.Whole (a : Assembly) : Prop := ∀ q, 1 ≤ q → q ≤ a.size → (entryAt a.entries q).isSome = true

theorem Assembly.complete_iff (a : Assembly) : a.complete = true ↔ a.Whole := by
  unfold Assembly.complete allHeld Assembly.Whole entryAt
  simp only [List.all_eq_true, List.mem_range, List.find?_isSome, List.any_eq_true, beq_iff_eq]
  constructor
  · intro h q h1 h2
    obtain ⟨x, hx, hp⟩ := h (q - 1) (by omega)
    exact ⟨x, hx, by omega⟩
  · intro h i hi
    exact h (i + 1) (by omega) (by omega)

theorem completeTable_whole {a : Assembly} (h : a.Whole) : completeTable (some a) = some a.table :=
  if_pos (a.complete_iff.mpr h)

theorem completeTable_part {a : Assembly} (h : ¬ a.Whole) : completeTable (some a) = none :=
  if_neg fun hc => h (a.complete_iff.mp hc)

end Sys2Proof.Machine
end

section
/-! PROOFS. Roll records taken by a member: answers delivered, table parts stored (R54, R55, R89, R118, R141). -/

namespace Sys2Proof.Machine

open Sys2Proof

/-! ## Answers delivered (R89) -/

/-- A state with another queue of wants, other end units and other notices made. -/
def State.answerTaken (s : State) (u v : EndUnit) (q : List Want) (b : Bool) (o : List (Nat × NoticeBody)) : State :=
  ({ s.withEnds u v with pet := { s.pet with queue := q, releasedSince := b } } : State).withOutbox o

theorem State.deliverAs_only (s : State) (w : Option Want) (k : WantKind) (e : Option EndId) (out : AnswerOutcome)
    (r : Option Reason) : ∃ u v b o, s.deliverAs w k e out r = s.answerTaken u v s.pet.queue b o := by
  have same : ∃ u v b o, s = s.answerTaken u v s.pet.queue b o := ⟨s.e1, s.e2, s.pet.releasedSince, s.outbox, rfl⟩
  have noticed : ∀ rk body, ∃ u v b o, s.notify rk body = s.answerTaken u v s.pet.queue b o :=
    fun rk body => ⟨s.e1, s.e2, s.pet.releasedSince, s.outbox ++ [(rk, body)], rfl⟩
  unfold State.deliverAs
  repeat' split
  all_goals first
    | exact same
    | exact noticed _ _
    | exact ⟨s.e1, s.e2, true, _, rfl⟩
    | skip
  all_goals
    next e _ _ _ =>
      obtain ⟨u, v, h⟩ := s.mapEnd_withEnds e (EndUnit.joinAnswer out r)
      rw [h]
      exact ⟨u, v, s.pet.releasedSince, _, rfl⟩

theorem State.deliver_only (s : State) (k : WantKind) (e : Option EndId) (out : AnswerOutcome) (r : Option Reason) :
    ∃ u v q b o, s.deliver k e out r = s.answerTaken u v q b o
      ∧ (out ≠ .incomplete → q = s.pet.queue.filter fun w => !w.is k e) := by
  unfold State.deliver
  split
  · next h => exact ⟨s.e1, s.e2, (s.rewindJoinSeen e).pet.queue, s.pet.releasedSince, s.outbox, rfl, fun hn => absurd h hn⟩
  · obtain ⟨u, v, b, o, h⟩ := (s.dropWant k e).deliverAs_only (s.wantOf k e) k e out r
    exact ⟨u, v, _, b, o, h, fun _ => rfl⟩

/-! ## Table parts stored (R55) -/

/-- A step of work that reaches the formation unit and the planner only, and keeps node state and steering. -/
def State.Retabled (s t : State) : Prop :=
  ∃ f p, t = { s with form := f, planner := p } ∧ f.node = s.form.node ∧ f.steering = s.form.steering

theorem State.Retabled.refl (s : State) : s.Retabled s := ⟨s.form, s.planner, rfl, rfl, rfl⟩

theorem State.replaceEntries_retabled (s : State) (r : RollFields) : s.Retabled (s.replaceEntries r) := by
  unfold State.replaceEntries
  split
  · dsimp only
    split
    · exact ⟨_, _, rfl, rfl, rfl⟩
    · exact .refl s
  · exact .refl s

theorem State.gatherCurrent_retabled (s : State) (r : RollFields) : s.Retabled (s.gatherCurrent r) := by
  unfold State.gatherCurrent
  dsimp only
  split
  · exact ⟨_, s.planner, rfl, rfl, rfl⟩
  · exact ⟨_, s.planner, rfl, rfl, rfl⟩

theorem State.Retabled.completeTables {s : State} {f : FormationUnit}
    (h : f.node = s.form.node ∧ f.steering = s.form.steering) :
    s.Retabled ({ s with form := f } : State).completeTables := ⟨_, _, rfl, h.1, h.2⟩

/-- The table part of a roll record reaches the formation unit and the planner only (R54, R55). -/
theorem State.takeRollTable_retabled (s : State) (r : RollFields) : s.Retabled (s.takeRollTable r) := by
  unfold State.takeRollTable
  split
  · exact .refl s
  · dsimp only
    split
    · split
      · split
        · exact s.replaceEntries_retabled r
        · exact s.gatherCurrent_retabled r
      · exact .refl s
    all_goals
      split
      · exact State.Retabled.completeTables ⟨rfl, rfl⟩
      · exact .refl s

/-! ## A roll record that comes to a member (R54) -/

theorem State.advance_form_of {s : State} (h : s.form.node ≠ .listen) (k : Nat) : (s.advance k).form = s.form := by
  unfold State.advance
  split <;> simp

theorem State.takeRollAnswer_of_member {s : State} (h : s.form.node = .member) (a : RollAnswer) : s.takeRollAnswer a =
    if s.synced && a.position != 0 && a.position == s.ownPosition then s.deliver a.kind a.wantEnd a.outcome a.reason
    else s := by
  unfold State.takeRollAnswer
  rw [h]

/-- An answer in a roll record reaches end units, queue of wants and outbox only. -/
theorem State.takeRollAnswer_only {s : State} (h : s.form.node = .member) (a : RollAnswer) :
    ∃ u v q b o, s.takeRollAnswer a = s.answerTaken u v q b o := by
  rw [State.takeRollAnswer_of_member h]
  split
  · obtain ⟨u, v, q, b, o, hd, -⟩ := s.deliver_only a.kind a.wantEnd a.outcome a.reason
    exact ⟨u, v, q, b, o, hd⟩
  · exact ⟨s.e1, s.e2, s.pet.queue, s.pet.releasedSince, s.outbox, rfl⟩

/-- What a member does with the answer of a roll record, if it has one. -/
def State.heardRoll (s : State) (r : RollFields) : State := (r.answer.map s.takeRollAnswer).getD s

theorem State.takeRoll_eq (s : State) (r : RollFields) : s.takeRoll r = (s.heardRoll r).takeRollTable r := by
  unfold State.takeRoll State.heardRoll
  cases r.answer <;> rfl

theorem State.heardRoll_only {s : State} (h : s.form.node = .member) (r : RollFields) :
    ∃ u v q b o, s.heardRoll r = s.answerTaken u v q b o := by
  unfold State.heardRoll
  cases r.answer with
  | none => exact ⟨s.e1, s.e2, s.pet.queue, s.pet.releasedSince, s.outbox, rfl⟩
  | some a => exact s.takeRollAnswer_only h a

/-- Such a record is taken: its answer, then its table part (R54). -/
theorem roll_taken {s : State} {e : EndId} {os : List Octet} {r : RollFields} {k : Nat} (h : RollComes s e os r k) :
    ∃ z, exec (.rollRecordReceived k e os) s = finish (s.recordCame k e os) ((z.heardRoll r).takeRollTable r)
      ∧ CameTo s k z := by
  obtain ⟨hp, hn, hm, hs, ho, hk, ha, hc, hg, hd⟩ := h
  have hact : s.condition e = .active := State.condition_active hp (by rw [hn]; decide) hm hs
  obtain ⟨z, hr, hz⟩ := receive_inward (k := k) hg hp hact ho fun p s => s.handRoll e os p
  have hzn : z.form.node = .member := hz.passed.node.trans hn
  have htaken : z.rollTaken e = true := by
    have h1 : z.timer.kind = .marked := by rw [hz.passed.timer]; exact hk
    have h2 : z.timer.acceptEnd = some e := by rw [hz.passed.timer]; exact ha
    have h3 : z.arrivalCell.map Prod.fst = some 0 := (congrArg (fun x : State => x.arrivalCell.map Prod.fst) hz.interior :).trans hc
    unfold State.rollTaken
    rw [hzn, h1, h2, h3]
    simp
  have hnode : (z.takeRoll r).form.node = .member := by
    obtain ⟨u, v, q, b, o, hh⟩ := State.heardRoll_only hzn r
    obtain ⟨f, p, ht, hf, -⟩ := (z.heardRoll r).takeRollTable_retabled r
    rw [State.takeRoll_eq, ht, hf, hh]
    exact hzn
  have hh : z.handRoll e os .inward = z.takeRoll r := by
    unfold State.handRoll
    dsimp only
    rw [if_pos htaken, hd]
    dsimp only
    exact if_neg (by rw [hnode]; decide)
  refine ⟨z, ?_, hz⟩
  rw [← State.takeRoll_eq, ← hh]
  exact (exec_rollRecordReceived s k e os).trans hr

/-- An UNSYNCED member takes no answer (R89). -/
theorem State.heardRoll_unsynced {s : State} (h : s.form.node = .member) (hs : s.synced = false) (r : RollFields) :
    s.heardRoll r = s := by
  unfold State.heardRoll
  cases r.answer with
  | none => rfl
  | some a =>
    refine (State.takeRollAnswer_of_member h a).trans (if_neg ?_)
    rw [hs]
    simp

/-- The answer for the own position of a SYNCED member is delivered (R89). -/
theorem answer_taken {s : State} {e : EndId} {os : List Octet} {r : RollFields} {a : RollAnswer} {k : Nat}
    (h : AnswerComes s e os r a k) : ∃ z, exec (.rollRecordReceived k e os) s =
      finish (s.recordCame k e os) ((z.deliver a.kind a.wantEnd a.outcome a.reason).takeRollTable r) ∧ CameTo s k z := by
  obtain ⟨hr, hs, ha, hp, h0⟩ := h
  obtain ⟨z, hx, hz⟩ := roll_taken hr
  have hzn : z.form.node = .member := by
    obtain ⟨-, hn, -⟩ := hr
    exact hz.passed.node.trans hn
  have hown : (z.synced && a.position != 0 && a.position == z.ownPosition) = true := by
    rw [hz.passed.synced, hs, hz.passed.ownPosition, ← hp]
    simp [h0]
  have hheard : z.heardRoll r = z.deliver a.kind a.wantEnd a.outcome a.reason := by
    rw [State.heardRoll, ha, Option.map_some, Option.getD_some, State.takeRollAnswer_of_member hzn, if_pos hown]
  exact ⟨z, by rw [hx, hheard], hz⟩

/-- What the answer leaves of the link and the end units, the table part not touching them. -/
structure AnswerDone (s : State) (k : Nat) (e : EndId) (os : List Octet) (y t : State) : Prop where
  pet : t.pet = y.pet
  node : t.form.node = s.form.node
  queues : ∀ rk body, y.outbox = [(rk, body)] → rk < 5 → body.isChange = false → Queues t body
  link : AtRest s → y.outbox = [] → t.link = s.link
  ends : ∀ {α : Type} (p : EndUnit → α) (x : EndId), (∀ u : EndUnit, p u.receiver = p u) →
    (∀ u : EndUnit, p u.forgetJoin = p u) → p (t.endUnit x) = p (y.endUnit x)

theorem answer_done {s z : State} {k : Nat} {e : EndId} {os : List Octet} (hz : CameTo s k z) (u v : EndUnit)
    (q : List Want) (b : Bool) (o : List (Nat × NoticeBody)) (r : RollFields)
    (hm : ∀ x, ((z.answerTaken u v q b o).endUnit x).mode = (z.endUnit x).mode) :
    let y := z.answerTaken u v q b o
    AnswerDone s k e os y (State.settle (s.recordCame k e os) (y.takeRollTable r)) := by
  intro y
  obtain ⟨f, p, ht, hfn, hfs⟩ := y.takeRollTable_retabled r
  rw [ht]
  have hlink : y.link = s.link := hz.link
  refine ⟨settle_pet _ _, ?_, fun rk body ho hr hb => settle_queues_only (r := rk) ho hr hb, fun hrest ho => ?_,
    fun {α} p' x hr hj => ?_⟩
  · rw [settle_form]
    exact hfn.trans hz.passed.node
  · refine (settle_link_atRest (x := { y with form := f, planner := p }) ⟨ho, ?_⟩).trans hlink
    show y.link.tx = .idle → _
    rw [hlink]
    exact hrest.2
  · have hd : ({ y with form := f, planner := p } : State).detectable x = (s.recordCame k e os).detectable x := by
      have hn : f.node = (s.recordCame k e os).form.node := by
        rw [hfn, (Passed.recordCame s k e os).node]
        exact hz.passed.node
      have hst : f.steering = (s.recordCame k e os).form.steering := by
        rw [hfs, (Passed.recordCame s k e os).steering]
        exact hz.passed.steering
      have hmode : (({ y with form := f, planner := p } : State).endUnit x).mode =
          ((s.recordCame k e os).endUnit x).mode := by
        have h1 : (z.endUnit x).mode = (s.endUnit x).mode := (congrArg EndUnit.mode (hz.ends x) :)
        have h2 : ((s.recordCame k e os).endUnit x).mode = (s.endUnit x).mode :=
          (congrArg EndUnit.mode (s.recordCame_detector k e os x) :)
        rw [h2, ← h1, ← hm x]
        cases x <;> rfl
      unfold State.detectable State.outermost State.outer
      rw [hmode, ← hn, ← hst]
    have hu : ({ y with form := f, planner := p } : State).endUnit x = y.endUnit x := by cases x <;> rfl
    rw [settle_detecting (by rw [hd]; exact id) p' hr hj, hu]

end Sys2Proof.Machine
end

section
/-! PROOFS. What the answers of a roll record bring to a member, by kind and outcome (R20, R21, R89, R118). -/

namespace Sys2Proof.Machine

open Sys2Proof

/-! ## Deliveries by kind -/

theorem State.deliver_complete {s : State} {k : WantKind} {e : Option EndId} {out : AnswerOutcome} {r : Option Reason}
    (h : out ≠ .incomplete) : s.deliver k e out r = (s.dropWant k e).deliverAs (s.wantOf k e) k e out r := if_neg h

theorem State.deliver_joinSeen {s : State} {x : EndId} {out : AnswerOutcome} {o : JoinOutcome}
    (h : out.joinOutcome = some o) (r : Option Reason) : s.deliver .joinSeen (some x) out r =
      ((s.dropWant .joinSeen (some x)).mapEnd x (EndUnit.joinAnswer out r)).notify rankOutcome
        (.joinOutcome o r (some x) ((s.endUnit x).otherLeader out)) := by
  have hne : out ≠ .incomplete := by
    intro hc
    rw [hc] at h
    cases h
  have hu : (s.dropWant .joinSeen (some x)).endUnit x = s.endUnit x := by cases x <;> rfl
  rw [State.deliver_complete hne, State.deliverAs, h, ← hu]

/-- An answer of the kind BREAK is noticed with the want as it was queued. -/
theorem State.deliver_brk_outbox {s : State} {x : EndId} {held : Option (Cause × Capture × Bool)}
    (h : (∃ c cap fx, s.wantOf .brk (some x) = some (.brk x c cap fx) ∧ held = some (c, cap, fx))
      ∨ (s.wantOf .brk (some x) = none ∧ held = none)) (r : Option Reason) :
    (s.deliver .brk (some x) .done r).outbox = s.outbox ++ [(rankOutcome, .breakOutcome .done held)]
      ∧ (s.deliver .brk (some x) .stale r).outbox = s.outbox ++ [(rankOutcome, .breakOutcome .stale held)] := by
  have done := State.deliver_complete (s := s) (k := .brk) (e := some x) (out := .done) (r := r) (by decide)
  have stale := State.deliver_complete (s := s) (k := .brk) (e := some x) (out := .stale) (r := r) (by decide)
  rw [done, stale]
  rcases h with ⟨c, cap, fx, hw, rfl⟩ | ⟨hw, rfl⟩
  · rw [hw]
    exact ⟨rfl, rfl⟩
  · rw [hw]
    exact ⟨rfl, rfl⟩

/-- The queued want of kind BREAK is one. -/
theorem State.wantOf_brk (s : State) (x : EndId) :
    (∃ c cap fx, s.wantOf .brk (some x) = some (.brk x c cap fx)) ∨ s.wantOf .brk (some x) = none := by
  cases h : s.wantOf .brk (some x) with
  | none => exact .inr rfl
  | some w =>
    have hw : w.is .brk (some x) = true := List.find?_some h
    unfold Want.is at hw
    rw [Bool.and_eq_true, beq_iff_eq, beq_iff_eq] at hw
    obtain ⟨hk, he⟩ := hw
    cases w with
    | brk e' c cap fx =>
      have : e' = x := Option.some.inj he
      exact .inl ⟨c, cap, fx, by rw [this]⟩
    | joinSeen | foreignQuiet | principalReady | split | splitCancel | cabClaim | cabRelease | heading => cases hk

theorem State.deliver_mode (s : State) (k : WantKind) (e : Option EndId) (out : AnswerOutcome) (r : Option Reason) (x : EndId) :
    ((s.deliver k e out r).endUnit x).mode = (s.endUnit x).mode :=
  (congrArg Sense.mode (sense_of_shell (s.deliver_shell k e out r) x) :)

theorem deliver_done {s z : State} {k : Nat} {e : EndId} {os : List Octet} (hz : CameTo s k z) (a : RollAnswer)
    (r : RollFields) : AnswerDone s k e os (z.deliver a.kind a.wantEnd a.outcome a.reason)
      (State.settle (s.recordCame k e os) ((z.deliver a.kind a.wantEnd a.outcome a.reason).takeRollTable r)) := by
  have hm := z.deliver_mode a.kind a.wantEnd a.outcome a.reason
  obtain ⟨u, v, q, b, o, hd, -⟩ := z.deliver_only a.kind a.wantEnd a.outcome a.reason
  rw [hd] at hm ⊢
  exact answer_done hz u v q b o r hm

/-! ## The want an answer ends (R89) -/

theorem answer_removes {s : State} {e : EndId} {os : List Octet} {r : RollFields} {a : RollAnswer} {k : Nat}
    (h : AnswerComes s e os r a k) (hrest : AtRest s) (hne : a.outcome ≠ .incomplete) :
    ∃ t, exec (.rollRecordReceived k e os) s = .next t
      ∧ t.pet.queue = s.pet.queue.filter (fun w => !w.is a.kind a.wantEnd) ∧ t.form.node = .member
      ∧ t.pet.ownCab = s.pet.ownCab ∧ t.link.holding = s.link.holding := by
  obtain ⟨z, hx, hz⟩ := answer_taken h
  have hd := deliver_done (e := e) (os := os) hz a r
  obtain ⟨u, v, q, b, o, hy, hq⟩ := z.deliver_only a.kind a.wantEnd a.outcome a.reason
  have hnode : s.form.node = .member := by obtain ⟨⟨-, hn, -⟩, -⟩ := h; exact hn
  refine ⟨_, hx, ?_, hd.node.trans hnode, ?_, ?_⟩
  · rw [hd.pet, hy, ← hz.passed.queue]
    exact hq hne
  · rw [hd.pet, hy]
    show z.pet.ownCab = _
    rw [hz.passed.pet]
  · exact (congrArg Spared.holding (linesAndClockSpareTheRest _ _ _ rfl hrest hx) :)

/-! ## The notices of an answer (R89, R118) -/

section
variable {s z t : State} {k : Nat} {e : EndId} {os : List Octet} {a : RollAnswer}
  (hz : CameTo s k z) (hd : AnswerDone s k e os (z.deliver a.kind a.wantEnd a.outcome a.reason) t) (hrest : AtRest s)
include hz hd hrest

/-- The only notice of an answer is queued. -/
theorem AnswerDone.noticed {rk : Nat} {body : NoticeBody}
    (ho : (z.deliver a.kind a.wantEnd a.outcome a.reason).outbox = z.outbox ++ [(rk, body)]) (hr : rk < 5)
    (hb : body.isChange = false) : Queues t body := by
  rw [hz.outbox.trans hrest.1] at ho
  exact hd.queues rk body ho hr hb

theorem AnswerDone.joinSeen {x : EndId} {o : JoinOutcome} {other : Option Tag} (hk : a.kind = .joinSeen)
    (hx : a.wantEnd = some x) (ho : a.outcome.joinOutcome = some o) (hl : (s.endUnit x).otherLeader a.outcome = other) :
    Queues t (.joinOutcome o a.reason (some x) other) := by
  refine hd.noticed hz hrest (rk := rankOutcome) ?_ (by decide) rfl
  have hother : (z.endUnit x).otherLeader a.outcome = (s.endUnit x).otherLeader a.outcome :=
    (congrArg (EndUnit.otherLeader a.outcome) (hz.ends x) :)
  rw [hk, hx, State.deliver_joinSeen ho, hother, hl]
  exact congrArg (· ++ _) (State.mapEnd_outbox _ _ _)

/-- INCOMPLETE returns the pointer of the end's JOIN_SEEN, and is noticed by nothing (R89). -/
theorem AnswerDone.incomplete {x : EndId} (hx : a.wantEnd = some x) (ho : a.outcome = .incomplete) :
    t.link = s.link ∧ t.pet.queue = s.pet.queue.map fun w => if w.is .joinSeen (some x) then w.rewind else w := by
  have hy : z.deliver a.kind a.wantEnd a.outcome a.reason = z.rewindJoinSeen (some x) := by rw [ho, hx]; rfl
  refine ⟨hd.link hrest ?_, ?_⟩
  · rw [hy]
    exact hz.outbox.trans hrest.1
  · rw [hd.pet, hy, ← hz.passed.queue]
    rfl

/-- The signals of a join are answered without a notice (R89). -/
theorem AnswerDone.signal {x : EndId} (hk : a.kind = .foreignQuiet ∨ a.kind = .principalReady) (hx : a.wantEnd = some x)
    (ho : a.outcome = .done ∨ a.outcome = .stale) : t.link = s.link ∧ (t.endUnit x).phase = (s.endUnit x).phase
      ∧ (t.endUnit x).watch = (s.endUnit x).watch := by
  have hy : z.deliver a.kind a.wantEnd a.outcome a.reason = z.dropWant a.kind (some x) := by
    rcases hk with hk | hk <;> rcases ho with ho | ho <;> rw [hk, hx, ho] <;> rfl
  have hu : (z.dropWant a.kind (some x)).endUnit x = z.endUnit x := by cases x <;> rfl
  refine ⟨hd.link hrest ?_, ?_, ?_⟩
  · rw [hy]
    exact hz.outbox.trans hrest.1
  · rw [hd.ends EndUnit.phase x (fun _ => rfl) fun _ => rfl, hy, hu]
    exact (congrArg EndUnit.phase (hz.ends x) :)
  · rw [hd.ends EndUnit.watch x (fun _ => rfl) fun _ => rfl, hy, hu]
    exact (congrArg EndUnit.watch (hz.ends x) :)

/-- Every outcome of a split want is noticed (R89, log 86). -/
theorem AnswerDone.split (ho : a.outcome ≠ .incomplete) :
    (a.kind = .split → Queues t (.splitOutcome .split (.answer a.outcome a.reason)))
      ∧ (a.kind = .splitCancel → Queues t (.splitOutcome .splitCancel (.answer a.outcome a.reason))) := by
  refine ⟨fun hk => ?_, fun hk => ?_⟩
  · refine hd.noticed hz hrest (rk := rankOutcome) ?_ (by decide) rfl
    rw [State.deliver_complete ho, hk]
    rfl
  · refine hd.noticed hz hrest (rk := rankOutcome) ?_ (by decide) rfl
    rw [State.deliver_complete ho, hk]
    rfl

/-- The arbiter's answers (R89). -/
theorem AnswerDone.cab (hx : a.wantEnd = none) :
    (a.kind = .cabClaim → a.outcome = .granted → Queues t (.cab .granted))
      ∧ (a.kind = .cabClaim → a.outcome = .taken ∨ a.outcome = .noCab →
        Queues t (.petitionAnswer .cabClaim a.outcome a.reason))
      ∧ (a.kind = .cabRelease → a.outcome = .done → Queues t (.cab .released))
      ∧ (a.kind = .cabRelease → a.outcome = .notHolder → Queues t (.petitionAnswer .cabRelease a.outcome a.reason))
      ∧ (a.kind = .heading → a.outcome = .done ∨ a.outcome = .notHolder →
        Queues t (.petitionAnswer .heading a.outcome a.reason)) := by
  refine ⟨fun hk ho => ?_, fun hk ho => ?_, fun hk ho => ?_, fun hk ho => ?_, fun hk ho => ?_⟩
  · refine hd.noticed hz hrest (rk := rankCab) ?_ (by decide) rfl
    rw [hk, hx, ho]
    rfl
  · refine hd.noticed hz hrest (rk := rankOther) ?_ (by decide) rfl
    rcases ho with ho | ho <;> rw [hk, hx, ho] <;> rfl
  · refine hd.noticed hz hrest (rk := rankCab) ?_ (by decide) rfl
    rw [hk, hx, ho]
    rfl
  · refine hd.noticed hz hrest (rk := rankOther) ?_ (by decide) rfl
    rw [hk, hx, ho]
    rfl
  · refine hd.noticed hz hrest (rk := rankOther) ?_ (by decide) rfl
    rcases ho with ho | ho <;> rw [hk, hx, ho] <;> rfl

end

/-! ## A join answer at its end (R20, R21) -/

/-- An answer reaches the end it names, where a join it begins or ends is remembered besides. -/
theorem State.deliver_joinSeen_endUnit (s : State) (x : EndId) (out : AnswerOutcome) (r : Option Reason) :
    ∃ j, (s.deliver .joinSeen (some x) out r).endUnit x = { (s.endUnit x).takeAnswer out r with joining := j } := by
  cases ho : out.joinOutcome with
  | some o =>
    rw [State.deliver_joinSeen ho]
    have hu : (s.dropWant .joinSeen (some x)).endUnit x = s.endUnit x := by cases x <;> rfl
    refine ⟨((s.endUnit x).joinAnswer out r).joining, ?_⟩
    refine (State.endUnit_mapEnd (s.dropWant .joinSeen (some x)) x (EndUnit.joinAnswer out r)).trans ?_
    rw [hu]
    rfl
  | none =>
    have hu : ∀ u : EndUnit, u.takeAnswer out r = u := by
      intro u
      unfold EndUnit.takeAnswer
      split
      · cases out <;> first | rfl | cases ho
      · rfl
    refine ⟨(s.endUnit x).joining, ?_⟩
    rw [hu]
    unfold State.deliver State.deliverAs
    dsimp only
    rw [ho]
    split <;> cases x <;> rfl

/-- An answer that acts depends on what the end has detected. -/
theorem EndUnit.takeAnswer_detector (out : AnswerOutcome) (r : Option Reason) (u : EndUnit) :
    (u.takeAnswer out r).detector = (u.detector.takeAnswer out r) := by
  unfold EndUnit.takeAnswer
  have h1 : u.detector.phase = u.phase := rfl
  have h2 : u.detector.segregated = u.segregated := rfl
  have h3 : u.detector.attempts = u.attempts := rfl
  rw [h1, h2]
  split
  · split
    all_goals first
      | rfl
      | (dsimp only; rw [h3]; split <;> rfl)
  · rfl

/-- Two end units that have detected the same of a foreign formation. -/
structure EndUnit.DetectsAs (u w : EndUnit) : Prop where
  phase : u.phase = w.phase
  watch : u.watch = w.watch
  segregated : u.segregated = w.segregated
  attempts : u.attempts = w.attempts
  sighting : u.sighting = w.sighting
  foreign : u.foreign = w.foreign

theorem AnswerDone.detectsAs {s z t : State} {k : Nat} {e x : EndId} {os : List Octet} {a : RollAnswer} (hz : CameTo s k z)
    (hd : AnswerDone s k e os (z.deliver a.kind a.wantEnd a.outcome a.reason) t) (hk : a.kind = .joinSeen)
    (hx : a.wantEnd = some x) : (t.endUnit x).DetectsAs ((s.endUnit x).takeAnswer a.outcome a.reason) := by
  have field : ∀ {α : Type} (p : EndUnit → α), (∀ u : EndUnit, p u.receiver = p u) → (∀ u : EndUnit, p u.forgetJoin = p u) →
      (∀ u : EndUnit, p u.detector = p u) → p (t.endUnit x) = p ((s.endUnit x).takeAnswer a.outcome a.reason) := by
    intro α p hr hj hdet
    obtain ⟨j, hu⟩ := z.deliver_joinSeen_endUnit x a.outcome a.reason
    have hw : p ({ (z.endUnit x).takeAnswer a.outcome a.reason with joining := j } : EndUnit) =
        p ((z.endUnit x).takeAnswer a.outcome a.reason) :=
      (hj _).symm.trans (hj ((z.endUnit x).takeAnswer a.outcome a.reason))
    calc p (t.endUnit x)
        = p ((z.endUnit x).takeAnswer a.outcome a.reason) := by
          rw [hd.ends p x hr hj, hk, hx, hu, hw]
      _ = p ((s.endUnit x).takeAnswer a.outcome a.reason) := by
          rw [← hdet, EndUnit.takeAnswer_detector, hz.ends, ← EndUnit.takeAnswer_detector, hdet]
  exact ⟨field EndUnit.phase (fun _ => rfl) (fun _ => rfl) fun _ => rfl,
    field EndUnit.watch (fun _ => rfl) (fun _ => rfl) fun _ => rfl,
    field EndUnit.segregated (fun _ => rfl) (fun _ => rfl) fun _ => rfl,
    field EndUnit.attempts (fun _ => rfl) (fun _ => rfl) fun _ => rfl,
    field EndUnit.sighting (fun _ => rfl) (fun _ => rfl) fun _ => rfl,
    field EndUnit.foreign (fun _ => rfl) (fun _ => rfl) fun _ => rfl⟩

/-- A join answer taken by an end unit, by outcome (R20, R21). -/
theorem EndUnit.takeAnswer_told {u v : EndUnit} {out : AnswerOutcome} {reason : Option Reason}
    (h : u.DetectsAs (v.takeAnswer out reason)) :
    let acts := v.phase = .reported ∧ v.segregated = false
    let stays := u.phase = v.phase ∧ u.watch = v.watch ∧ u.segregated = v.segregated ∧ u.attempts = v.attempts
    let again := u.phase = .sighting ∧ u.sighting = v.sighting.map (fun g => { g with count := 0 })
      ∧ u.foreign = none ∧ u.watch = .none ∧ u.segregated = false
    let parted := u.segregated = true ∧ u.phase = .quiet ∧ u.foreign = none ∧ u.watch = .none
    (¬ acts → stays)
      ∧ (acts → out = .joinPrincipal → u.watch = .quietWatch false ∧ u.phase = .reported)
      ∧ (acts → out = .joinAbsorbed → u.watch = .admitWatch ∧ u.phase = .reported)
      ∧ (acts → out = .joinRefused → parted ∧ u.attempts = v.attempts)
      ∧ (acts → out = .joinAbandoned → reason = some .deadline →
        (v.attempts < 2 → again ∧ u.attempts = v.attempts + 1) ∧ (v.attempts = 2 → parted ∧ u.attempts = 3))
      ∧ (acts → out = .joinAbandoned → reason = some .brk → again ∧ u.attempts = v.attempts)
      ∧ (acts → out = .stale → again ∧ u.attempts = v.attempts)
      ∧ (acts → out = .incomplete → stays) := by
  intro acts stays again parted
  have hact : acts → (decide (v.phase = .reported) && !v.segregated) = true := by
    rintro ⟨h1, h2⟩
    simp [h1, h2]
  have kept : v.takeAnswer out reason = v → stays := by
    intro hw
    rw [hw] at h
    exact ⟨h.phase, h.watch, h.segregated, h.attempts⟩
  have resighted : acts → v.takeAnswer out reason = v.resight → again ∧ u.attempts = v.attempts := by
    intro ha hw
    rw [hw] at h
    exact ⟨⟨h.phase, h.sighting, h.foreign, h.watch, h.segregated.trans ha.2⟩, h.attempts⟩
  refine ⟨fun hn => kept (if_neg fun hc => hn ?_), fun ha ho => ?_, fun ha ho => ?_, fun ha ho => ?_,
    fun ha ho hr => ⟨fun hl => ?_, fun hl => ?_⟩, fun ha ho hr => resighted ha ?_, fun ha ho => resighted ha ?_,
    fun ha ho => kept ?_⟩
  · simpa using hc
  · rw [ho, show v.takeAnswer .joinPrincipal reason = _ from if_pos (hact ha)] at h
    exact ⟨h.watch, h.phase.trans ha.1⟩
  · rw [ho, show v.takeAnswer .joinAbsorbed reason = _ from if_pos (hact ha)] at h
    exact ⟨h.watch, h.phase.trans ha.1⟩
  · rw [ho, show v.takeAnswer .joinRefused reason = v.segregate from if_pos (hact ha)] at h
    exact ⟨⟨h.segregated, h.phase, h.foreign, h.watch⟩, h.attempts⟩
  · have hw : v.takeAnswer .joinAbandoned (some .deadline) =
        ({ v with attempts := min 3 (v.attempts + 1) } : EndUnit).resight :=
      (if_pos (hact ha)).trans (if_neg (by show ¬ min 3 (v.attempts + 1) = 3; omega))
    rw [ho, hr, hw] at h
    refine ⟨⟨h.phase, h.sighting, h.foreign, h.watch, h.segregated.trans ha.2⟩, h.attempts.trans ?_⟩
    show min 3 (v.attempts + 1) = _
    omega
  · have hw : v.takeAnswer .joinAbandoned (some .deadline) =
        ({ v with attempts := min 3 (v.attempts + 1) } : EndUnit).segregate :=
      (if_pos (hact ha)).trans (if_pos (by show min 3 (v.attempts + 1) = 3; omega))
    rw [ho, hr, hw] at h
    refine ⟨⟨h.segregated, h.phase, h.foreign, h.watch⟩, h.attempts.trans ?_⟩
    show min 3 (v.attempts + 1) = _
    omega
  · rw [ho, hr]
    exact if_pos (hact ha)
  · rw [ho]
    exact if_pos (hact ha)
  · rw [ho]
    exact if_pos (hact ha)

end Sys2Proof.Machine
end

section
/-! PROOFS. The table part of a roll record at a member: assemblies, pending and armed tables, entries replaced (R51, R54,
R55, R63, R80, R141). -/

namespace Sys2Proof.Machine

open Sys2Proof

/-! ## Where a table part is stored (R51, R54) -/

/-- A table part of another epoch is ignored. -/
theorem State.takeRollTable_ignored {y : State} {r : RollFields} {ep : Epoch} (hw : y.workingEpoch = some ep)
    (h : r.epoch ≠ if r.kind = .current then ep else ep + 1) : y.takeRollTable r = y := by
  unfold State.takeRollTable
  rw [hw]
  dsimp only
  cases hk : r.kind <;> rw [hk] at h <;> exact if_neg h

section
variable {y : State} {r : RollFields} {ep : Epoch} (hw : y.workingEpoch = some ep)
include hw

theorem State.takeRollTable_current (he : r.epoch = ep) (hk : r.kind = .current) :
    y.takeRollTable r = if y.synced then y.replaceEntries r else y.gatherCurrent r := by
  unfold State.takeRollTable
  rw [hw]
  dsimp only
  rw [hk]
  exact if_pos he

theorem State.takeRollTable_pending (he : r.epoch = ep + 1) (hk : r.kind = .pending) :
    y.takeRollTable r = ({ y with form := { y.form with
      asmPending := some (storeRecord y.form.asmPending r.epoch r.size r.entries) } } : State).completeTables := by
  unfold State.takeRollTable
  rw [hw]
  dsimp only
  rw [hk]
  exact if_pos he

theorem State.takeRollTable_armedA (he : r.epoch = ep + 1) (hk : r.kind = .armedA) :
    y.takeRollTable r = ({ y with form := { y.form with
      asmA := some (storeRecord y.form.asmA r.epoch r.size r.entries) } } : State).completeTables := by
  unfold State.takeRollTable
  rw [hw]
  dsimp only
  rw [hk]
  exact if_pos he

theorem State.takeRollTable_armedB (he : r.epoch = ep + 1) (hk : r.kind = .armedB) :
    y.takeRollTable r = ({ y with form := { y.form with
      asmB := some (storeRecord y.form.asmB r.epoch r.size r.entries) } } : State).completeTables := by
  unfold State.takeRollTable
  rw [hw]
  dsimp only
  rw [hk]
  exact if_pos he

end

/-! ## Complete assemblies (R55, R63, R80) -/

/-- A complete PENDING assembly is the pending table, with its shadow plan (R55, R80). -/
theorem State.completeTables_pending {x : State} {a : Assembly} (ha : x.form.asmPending = some a) :
    (¬ a.Whole → x.completeTables.form.pendingT = x.form.pendingT)
      ∧ (a.Whole → x.completeTables.form.pendingT = some a.table
        ∧ (x.form.pendingT ≠ some a.table →
          x.completeTables.planner.shadowPending = some (makePlan a.table x.planPeriod))) := by
  have hp : x.completeTables.form.pendingT =
      if (completeTable (some a)).isSome then completeTable (some a) else x.form.pendingT := by rw [← ha]; rfl
  refine ⟨fun hn => ?_, fun hw => ?_⟩
  · rw [hp, completeTable_part hn]
    rfl
  · have ht : x.completeTables.form.pendingT = some a.table := by
      rw [hp, completeTable_whole hw]
      rfl
    refine ⟨ht, fun hne => ?_⟩
    have hs : x.completeTables.planner.shadowPending =
        shadowPlan x.planPeriod x.form.pendingT x.completeTables.form.pendingT x.planner.shadowPending := rfl
    rw [hs, ht]
    exact if_neg (by simp [Ne.symm hne])

/-- With the pair of armed assemblies under the working epoch above they are the armed tables, with none the tables stay. -/
theorem State.completeTables_pair (x : State) :
    (∀ a b, x.armedPair = some (a, b) → x.completeTables.form.armedA = some a ∧ x.completeTables.form.armedB = some b)
      ∧ (x.armedPair = none →
        x.completeTables.form.armedA = x.form.armedA ∧ x.completeTables.form.armedB = x.form.armedB) := by
  have hA : x.completeTables.form.armedA = if x.armedPair.isSome then x.armedPair.map Prod.fst else x.form.armedA := rfl
  have hB : x.completeTables.form.armedB = if x.armedPair.isSome then x.armedPair.map Prod.snd else x.form.armedB := rfl
  rw [hA, hB]
  refine ⟨fun a b h => ?_, fun h => ?_⟩ <;> rw [h] <;> exact ⟨rfl, rfl⟩

theorem State.armedPair_none {x : State} (h : completeTable x.form.asmA = none ∨ completeTable x.form.asmB = none) :
    x.armedPair = none := by
  unfold State.armedPair
  rcases h with h | h
  · rw [h]
  · rw [h]
    split
    · next hb _ => cases hb
    · rfl

/-- Complete assemblies A and B together are the armed tables (R55, R63). -/
theorem State.completeTables_armed {x : State} {a b : Assembly} {ep : Epoch} (ha : x.form.asmA = some a)
    (hb : x.form.asmB = some b) (hw : x.workingEpoch = some ep) :
    (a.Whole → b.Whole → a.epoch = ep + 1 → b.epoch = ep + 1 →
      x.completeTables.form.armedA = some a.table ∧ x.completeTables.form.armedB = some b.table)
      ∧ (¬ a.Whole ∨ ¬ b.Whole →
        x.completeTables.form.armedA = x.form.armedA ∧ x.completeTables.form.armedB = x.form.armedB) := by
  obtain ⟨hpair, hnone⟩ := x.completeTables_pair
  refine ⟨fun h1 h2 h3 h4 => hpair _ _ ?_, fun h => hnone (State.armedPair_none ?_)⟩
  · have hu : armedUnder ep a.table b.table = true := by
      unfold armedUnder Assembly.table
      simp [h3, h4]
    unfold State.armedPair
    rw [ha, hb, hw, completeTable_whole h1, completeTable_whole h2]
    exact if_pos hu
  · rw [ha, hb]
    exact h.imp completeTable_part completeTable_part

/-- Without one of the assemblies the armed tables stay (R55). -/
theorem State.completeTables_unpaired {x : State} (h : x.form.asmA = none ∨ x.form.asmB = none) :
    x.completeTables.form.armedA = x.form.armedA ∧ x.completeTables.form.armedB = x.form.armedB := by
  refine x.completeTables_pair.2 (State.armedPair_none ?_)
  exact h.imp (fun h => by rw [h]; rfl) fun h => by rw [h]; rfl

theorem State.armedComplete_of {t : State} {a b : Table} {ep : Epoch} (ha : t.form.armedA = some a)
    (hb : t.form.armedB = some b) (hw : t.workingEpoch = some ep) (h1 : a.epoch = ep + 1) (h2 : b.epoch = ep + 1) :
    t.armedComplete = true := by
  unfold State.armedComplete
  rw [ha, hb, hw]
  simp [armedUnder, h1, h2]

/-! ## Entries gathered and replaced (R55, R141) -/

theorem State.gatherCurrent_form (s : State) (r : RollFields) :
    (s.gatherCurrent r).form.asmCurrent = some (storeRecord s.form.asmCurrent r.epoch r.size r.entries)
      ∧ (s.gatherCurrent r).form.current = s.form.current ∧ (s.gatherCurrent r).planner = s.planner := by
  unfold State.gatherCurrent
  dsimp only
  split <;> exact ⟨rfl, rfl, rfl⟩

/-- Whether a CURRENT record goes with the table: its size, and its cars at their positions (R141). -/
abbrev RollFields.FitsTable (r : RollFields) (tb : Table) : Prop :=
  r.size = tb.size ∧ ∀ en ∈ r.entries, (entryAt tb.entries en.position).map Entry.tag = some en.tag

theorem State.replaceEntries_told {s : State} {tb : Table} (hc : s.form.current = some tb) (r : RollFields) :
    (¬ r.FitsTable tb → s.replaceEntries r = s)
      ∧ (r.FitsTable tb → (r.entries.map Entry.position).Nodup → ∃ tb',
        (s.replaceEntries r).form = { s.form with current := some tb' } ∧ tb'.epoch = tb.epoch
        ∧ (∀ q, entryAt tb'.entries q = (entryAt r.entries q).orElse fun _ => entryAt tb.entries q)
        ∧ (s.replaceEntries r).planner = if tb' = tb then s.planner else { s.planner with stale := true }) := by
  let ens := r.entries.foldl (fun l en => putEntry en l) tb.entries
  let fits := r.size == tb.size && r.entries.all fun en => (entryAt tb.entries en.position).map Entry.tag == some en.tag
  have hfits : fits = true ↔ r.FitsTable tb := by
    simp [fits, RollFields.FitsTable]
  have hr : s.replaceEntries r = if (fits && ens != tb.entries) = true then
      { s with form := { s.form with current := some { tb with entries := ens } },
               planner := { s.planner with stale := true } } else s := by
    unfold State.replaceEntries
    rw [hc]
  have hself : s.form = { s.form with current := some tb } := by rw [← hc]
  refine ⟨fun hn => ?_, fun hf hnd => ⟨{ tb with entries := ens }, ?_, rfl, entryAt_putEntries hnd tb.entries, ?_⟩⟩
  · rw [hr, Bool.eq_false_iff.mpr fun h => hn (hfits.mp h)]
    rfl
  · rw [hr, hfits.mpr hf]
    by_cases he : ens = tb.entries
    · rw [if_neg (by simp [he]), he]
      exact hself
    · rw [if_pos (by simpa using he)]
  · rw [hr, hfits.mpr hf]
    by_cases he : ens = tb.entries
    · rw [if_neg (by simp [he]), he]
      exact (if_pos rfl).symm
    · rw [if_pos (by simpa using he)]
      exact (if_neg fun h => he (congrArg Table.entries h)).symm

end Sys2Proof.Machine
end

section
/-! PROOFS. Roll records taken by a member, assembled (R54, R55, R89, R118, R141). -/

namespace Sys2Proof.Machine

open Sys2Proof

/-- A member as the table part of a roll record finds it: its answer delivered, tables and plans as they were. -/
structure TableComes (s : State) (ep : Epoch) (y : State) : Prop where
  form : y.form = s.form
  planner : y.planner = s.planner
  working : y.workingEpoch = some ep
  synced : y.synced = s.synced
  period : y.planPeriod = s.period
  node : s.form.node = .member

theorem table_comes {s : State} {e : EndId} {os : List Octet} {r : RollFields} {ep : Epoch} {k : Nat}
    (h : RollComes s e os r k) (hf : s.timer.followed.map Prod.snd = some ep) :
    ∃ y, exec (.rollRecordReceived k e os) s = finish (s.recordCame k e os) (y.takeRollTable r) ∧ TableComes s ep y := by
  have hn : s.form.node = .member := by obtain ⟨-, hn, -⟩ := h; exact hn
  obtain ⟨z, hx, hz⟩ := roll_taken h
  obtain ⟨u, v, q, b, o, hy⟩ := State.heardRoll_only (hz.passed.node.trans hn) r
  have hw : s.workingEpoch = some ep := (if_neg (by rw [hn]; decide)).trans hf
  refine ⟨z.heardRoll r, hx, ?_⟩
  rw [hy]
  exact ⟨hz.form.trans (State.advance_form_of (by rw [hn]; decide) k), hz.passed.planner,
    hz.passed.workingEpoch.trans hw, hz.passed.synced,
    (if_neg (by show ¬ z.form.node = .lead; rw [hz.passed.node, hn]; decide)).trans hz.passed.period, hn⟩

section
variable {s y : State} {r : RollFields} {ep : Epoch} (h : TableComes s ep y)
include h

theorem TableComes.pending (he : r.epoch = ep + 1) (hk : r.kind = .pending) :
    let t := y.takeRollTable r
    let a := storeRecord s.form.asmPending r.epoch r.size r.entries
    t.form.current = s.form.current ∧ t.form.asmPending = some a
      ∧ (¬ a.Whole → t.form.pendingT = s.form.pendingT)
      ∧ (a.Whole → t.form.pendingT = some a.table
        ∧ (s.form.pendingT ≠ some a.table → t.planner.shadowPending = some (makePlan a.table s.period))) := by
  intro t a
  let x : State := { y with form := { y.form with
    asmPending := some (storeRecord y.form.asmPending r.epoch r.size r.entries) } }
  have ht : t = x.completeTables := State.takeRollTable_pending h.working he hk
  have hxp : x.planPeriod = s.period := h.period
  have hxa : x.form.asmPending = some a := by
    show some (storeRecord y.form.asmPending r.epoch r.size r.entries) = _
    rw [h.form]
  have hxt : x.form.pendingT = s.form.pendingT := by
    show y.form.pendingT = _
    rw [h.form]
  have hc := State.completeTables_pending hxa
  rw [hxt, hxp] at hc
  rw [ht]
  exact ⟨(congrArg FormationUnit.current h.form :), hxa, hc.1, hc.2⟩

theorem TableComes.armedA (he : r.epoch = ep + 1) (hk : r.kind = .armedA) :
    let t := y.takeRollTable r
    let a := storeRecord s.form.asmA r.epoch r.size r.entries
    (t.form.current = s.form.current ∧ t.form.asmA = some a ∧ t.form.asmB = s.form.asmB)
      ∧ (∀ other, s.form.asmB = some other →
        (a.Whole → other.Whole → other.epoch = ep + 1 →
          t.form.armedA = some a.table ∧ t.form.armedB = some other.table)
        ∧ (¬ a.Whole ∨ ¬ other.Whole → t.form.armedA = s.form.armedA ∧ t.form.armedB = s.form.armedB))
      ∧ (s.form.asmB = none → t.form.armedA = s.form.armedA ∧ t.form.armedB = s.form.armedB) := by
  intro t a
  let x : State := { y with form := { y.form with asmA := some (storeRecord y.form.asmA r.epoch r.size r.entries) } }
  have ht : t = x.completeTables := State.takeRollTable_armedA h.working he hk
  have hxf : x.form = { s.form with asmA := some a } := by
    show ({ y.form with asmA := _ } : FormationUnit) = _
    rw [h.form]
  have hxa : x.form.asmA = some a := by rw [hxf]
  have hxb : x.form.asmB = s.form.asmB := by rw [hxf]
  have hA : x.form.armedA = s.form.armedA := by rw [hxf]
  have hB : x.form.armedB = s.form.armedB := by rw [hxf]
  have hep : a.epoch = ep + 1 := (storeRecord_kept _ _ _ _).1.trans he
  rw [ht, ← hA, ← hB]
  refine ⟨⟨(congrArg FormationUnit.current hxf :), hxa, hxb⟩, fun other ho => ?_, fun ho => ?_⟩
  · have hc := State.completeTables_armed hxa (hxb.trans ho) (ep := ep) h.working
    exact ⟨fun h1 h2 h3 => hc.1 h1 h2 hep h3, hc.2⟩
  · exact State.completeTables_unpaired (.inr (hxb.trans ho))

theorem TableComes.armedB (he : r.epoch = ep + 1) (hk : r.kind = .armedB) :
    let t := y.takeRollTable r
    let b := storeRecord s.form.asmB r.epoch r.size r.entries
    (t.form.current = s.form.current ∧ t.form.asmB = some b ∧ t.form.asmA = s.form.asmA)
      ∧ (∀ other, s.form.asmA = some other →
        (b.Whole → other.Whole → other.epoch = ep + 1 →
          t.form.armedA = some other.table ∧ t.form.armedB = some b.table)
        ∧ (¬ b.Whole ∨ ¬ other.Whole → t.form.armedA = s.form.armedA ∧ t.form.armedB = s.form.armedB))
      ∧ (s.form.asmA = none → t.form.armedA = s.form.armedA ∧ t.form.armedB = s.form.armedB) := by
  intro t b
  let x : State := { y with form := { y.form with asmB := some (storeRecord y.form.asmB r.epoch r.size r.entries) } }
  have ht : t = x.completeTables := State.takeRollTable_armedB h.working he hk
  have hxf : x.form = { s.form with asmB := some b } := by
    show ({ y.form with asmB := _ } : FormationUnit) = _
    rw [h.form]
  have hxb : x.form.asmB = some b := by rw [hxf]
  have hxa : x.form.asmA = s.form.asmA := by rw [hxf]
  have hA : x.form.armedA = s.form.armedA := by rw [hxf]
  have hB : x.form.armedB = s.form.armedB := by rw [hxf]
  have hep : b.epoch = ep + 1 := (storeRecord_kept _ _ _ _).1.trans he
  rw [ht, ← hA, ← hB]
  refine ⟨⟨(congrArg FormationUnit.current hxf :), hxb, hxa⟩, fun other ho => ?_, fun ho => ?_⟩
  · have hc := State.completeTables_armed (hxa.trans ho) hxb (ep := ep) h.working
    exact ⟨fun h1 h2 h3 => hc.1 h2 h1 h3 hep, fun hn => hc.2 hn.symm⟩
  · exact State.completeTables_unpaired (.inl (hxa.trans ho))

theorem TableComes.gathered (he : r.epoch = ep) (hk : r.kind = .current) (hs : s.synced = false) :
    (y.takeRollTable r).form.asmCurrent = some (storeRecord s.form.asmCurrent r.epoch r.size r.entries)
      ∧ (y.takeRollTable r).form.current = s.form.current ∧ (y.takeRollTable r).planner = s.planner := by
  have ht : y.takeRollTable r = y.gatherCurrent r :=
    (State.takeRollTable_current h.working he hk).trans (if_neg (by rw [h.synced, hs]; decide))
  obtain ⟨h1, h2, h3⟩ := y.gatherCurrent_form r
  rw [ht, ← h.form]
  exact ⟨h1, h2, h3.trans h.planner⟩

theorem TableComes.replaced (he : r.epoch = ep) (hk : r.kind = .current) (hs : s.synced = true) {tb : Table}
    (hc : s.form.current = some tb) :
    let t := y.takeRollTable r
    (¬ r.FitsTable tb → t.form = s.form ∧ t.planner = s.planner)
      ∧ (r.FitsTable tb → (r.entries.map Entry.position).Nodup → ∃ tb', t.form = { s.form with current := some tb' }
        ∧ tb'.epoch = tb.epoch
        ∧ (∀ q, entryAt tb'.entries q = (entryAt r.entries q).orElse fun _ => entryAt tb.entries q)
        ∧ t.planner = if tb' = tb then s.planner else { s.planner with stale := true }) := by
  intro t
  have ht : t = y.replaceEntries r :=
    (State.takeRollTable_current h.working he hk).trans (if_pos (by rw [h.synced, hs]))
  have hr := State.replaceEntries_told (s := y) (by rw [h.form]; exact hc) r
  rw [h.form, h.planner] at hr
  rw [ht]
  refine ⟨fun hn => ?_, hr.2⟩
  rw [hr.1 hn]
  exact ⟨h.form, h.planner⟩

end

/-- The epoch of the tables that a stored record and a held assembly complete to. -/
theorem stored_table_epoch (a : Option Assembly) (ep : Epoch) (size : Nat) (ens : List Entry) :
    (storeRecord a ep size ens).table.epoch = ep := (storeRecord_kept a ep size ens).1

/-- Settles O43: the answer part, then the table part, then the assemblies. -/
theorem rollAnswerRemovesWant : Obligations.RollAnswerRemovesWant := by
  refine ⟨fun s e os r a k hp hrest hn hs hm hg ho hk hacc hc hgood hdec ha hpos h0 hne => ?_,
    fun s e os r k hr hs => ?_, fun s e os r a k h hrest hlen => ?_, fun s e x os r a k h hk hx => ?_,
    fun s e os r ep k hr hf => ?_, fun a ep size en rest => ⟨?_, rfl, fun h => ?_, fun he hs hn ho => ⟨?_, ?_, ?_, ?_⟩⟩⟩
  · exact answer_removes ⟨⟨hp, hn, hm, hg, ho, hk, hacc, hc, hgood, hdec⟩, hs, ha, hpos, h0⟩ hrest hne
  · have hn : s.form.node = .member := by obtain ⟨-, hn, -⟩ := hr; exact hn
    obtain ⟨z, hx, hz⟩ := roll_taken hr
    rw [State.heardRoll_unsynced (hz.passed.node.trans hn) (hz.passed.synced.trans hs)] at hx
    obtain ⟨f, p, ht, -⟩ := z.takeRollTable_retabled r
    refine ⟨_, hx, ?_⟩
    rw [settle_pet, ht]
    exact hz.pet
  · obtain ⟨z, hx, hz⟩ := answer_taken h
    have hd := deliver_done (e := e) (os := os) hz a r
    refine ⟨_, hx, fun x hk hw => ?_, fun x hk hw => ?_, fun x hk hw ho => hd.signal hz hrest hk hw ho, fun hw => ?_⟩
    · intro other tells
      have told : ∀ o, a.outcome.joinOutcome = some o → tells o := fun o ho => hd.joinSeen hz hrest hk hw ho rfl
      exact ⟨fun ho => told _ (by rw [ho]; rfl), fun ho => told _ (by rw [ho]; rfl), fun ho => told _ (by rw [ho]; rfl),
        fun ho => told _ (by rw [ho]; rfl), fun ho => told _ (by rw [ho]; rfl), fun ho => hd.incomplete hz hrest hw ho⟩
    · intro want
      have hwz : z.wantOf .brk (some x) = s.wantOf .brk (some x) := by rw [State.wantOf, State.wantOf, hz.passed.queue]
      have hb := State.deliver_brk_outbox (s := z) (x := x) (held := want) (by
        rw [hwz]
        rcases s.wantOf_brk x with ⟨c, cap, fx, hwo⟩ | hwo
        · exact .inl ⟨c, cap, fx, hwo, by simp only [want, hwo]⟩
        · exact .inr ⟨hwo, by simp only [want, hwo]⟩) a.reason
      refine ⟨fun ho => hd.noticed hz hrest (rk := rankOutcome) ?_ (by decide) rfl,
        fun ho => hd.noticed hz hrest (rk := rankOutcome) ?_ (by decide) rfl⟩
      · rw [hk, hw, ho]
        exact hb.1
      · rw [hk, hw, ho]
        exact hb.2
    · exact ⟨fun hk hne => (hd.split hz hrest hne).1 hk, fun hk hne => (hd.split hz hrest hne).2 hk,
        hd.cab hz hrest hw⟩
  · obtain ⟨z, hx', hz⟩ := answer_taken h
    exact ⟨_, hx', EndUnit.takeAnswer_told ((deliver_done hz a r).detectsAs hz hk hx)⟩
  · obtain ⟨y, hx, hy⟩ := table_comes hr hf
    intro stored whole held f
    let t := State.settle (s.recordCame k e os) (y.takeRollTable r)
    have htf : t.form = (y.takeRollTable r).form := settle_form _ _
    have htp : t.planner = (y.takeRollTable r).planner := settle_planner _ _
    have hnode : t.form.node = .member := by
      obtain ⟨f', p, ht, hfn, -⟩ := y.takeRollTable_retabled r
      rw [htf, ht, ← hy.node, ← hy.form]
      exact hfn
    have hwork : t.workingEpoch = some ep := by
      obtain ⟨f', p, ht, -⟩ := y.takeRollTable_retabled r
      have htt : t.timer = y.timer := by
        show (State.settle _ _).timer = _
        rw [settle_timer, ht]
      have hyw := hy.working
      rw [State.workingEpoch, if_neg (by rw [hy.form, hy.node]; decide)] at hyw
      rw [State.workingEpoch, if_neg (by rw [hnode]; decide), htt]
      exact hyw
    have complete : ∀ a b : Table, (y.takeRollTable r).form.armedA = some a ∧ (y.takeRollTable r).form.armedB = some b →
        a.epoch = ep + 1 → b.epoch = ep + 1 → t.armedComplete = true := fun a b h h1 h2 =>
      State.armedComplete_of (by rw [htf]; exact h.1) (by rw [htf]; exact h.2) hwork h1 h2
    refine ⟨t, hx, hnode, fun hne => ?_, fun he hk => ?_, fun other he hk ho => ?_, fun other he hk ho => ?_,
      fun he hk ho => ?_, fun he hk ho => ?_, fun he hk hs => ?_, fun tb he hk hs hc => ?_⟩
    · rw [htf, htp, State.takeRollTable_ignored hy.working hne]
      exact ⟨hy.form, hy.planner⟩
    · rw [htf, htp]
      exact hy.pending he hk
    · obtain ⟨⟨h1, h2, h3⟩, hp, -⟩ := hy.armedA he hk
      obtain ⟨hboth, hpart⟩ := hp other ho
      rw [htf]
      refine ⟨h1, h2, h3, fun w1 w2 w3 => ?_, hpart⟩
      have hab := hboth w1 w2 w3
      exact ⟨hab.1, hab.2, complete _ _ hab ((stored_table_epoch _ _ _ _).trans he) w3⟩
    · obtain ⟨⟨h1, h2, h3⟩, hp, -⟩ := hy.armedB he hk
      obtain ⟨hboth, hpart⟩ := hp other ho
      rw [htf]
      refine ⟨h1, h2, h3, fun w1 w2 w3 => ?_, hpart⟩
      have hab := hboth w1 w2 w3
      exact ⟨hab.1, hab.2, complete _ _ hab w3 ((stored_table_epoch _ _ _ _).trans he)⟩
    · obtain ⟨⟨-, h2, -⟩, -, hnone⟩ := hy.armedA he hk
      rw [htf]
      exact ⟨h2, hnone ho⟩
    · obtain ⟨⟨-, h2, -⟩, -, hnone⟩ := hy.armedB he hk
      rw [htf]
      exact ⟨h2, hnone ho⟩
    · rw [htf, htp]
      exact hy.gathered he hk hs
    · rw [htf, htp]
      exact hy.replaced he hk hs hc
  · exact storeRecord_cons (some a) ep size en rest
  · exact storeRecord_fresh h [en]
  · exact (storeRecord_kept _ _ _ _).1
  · exact (storeRecord_kept _ _ _ _).2
  · rintro ⟨y, hy, ht, hp⟩
    rw [storeRecord_same he hs]
    exact storeEntry_cleared ho hy ht hp
  · intro hpos q
    rw [storeRecord_same he hs]
    show entryAt (storeEntry a en).entries q = _
    rw [storeEntry_stored hn ho hpos, entryAt_putEntry]

end Sys2Proof.Machine
end

section
/-! PROOFS. What accepting a mark does, stage by stage: the timer, the tables, the plan, the channels, the roll slot start
(R33, R35, R56, R59, R63, R82, R100, R140, R150). -/

namespace Sys2Proof.Machine

open Sys2Proof

/-! ## The plan at the end of a cycle start (R82, R141, R158) -/

theorem State.applySuspension_only (s : State) : ∃ c o, s.applySuspension =
    ({ s with chan := c } : State).withOutbox (s.outbox ++ o) ∧ c.watch = s.chan.watch ∧ (s.chan.watch = [] → o = []) := by
  unfold State.applySuspension
  split
  · exact ⟨s.chan, [], by rw [List.append_nil]; rfl, rfl, fun _ => rfl⟩
  · obtain ⟨o, h, -, ho⟩ := s.setImage_only _
    exact ⟨_, o, h, rfl, ho⟩

/-- A plan made again is the one in force where that is the current table's under the period in force. -/
theorem State.replan_planned (s : State) : ∃ p c o, s.replan =
    ({ s with planner := p, chan := c } : State).withOutbox (s.outbox ++ o) ∧ c.watch = s.chan.watch
      ∧ (s.chan.watch = [] → o = [])
      ∧ (∀ t, s.form.current = some t → s.planner.inForce = some (makePlan t s.planPeriod) →
        p.inForce = some (makePlan t s.planPeriod)) := by
  have keep : ∃ p c o, s = ({ s with planner := p, chan := c } : State).withOutbox (s.outbox ++ o)
      ∧ c.watch = s.chan.watch ∧ (s.chan.watch = [] → o = [])
      ∧ (∀ t, s.form.current = some t → s.planner.inForce = some (makePlan t s.planPeriod) →
        p.inForce = some (makePlan t s.planPeriod)) :=
    ⟨s.planner, s.chan, [], by rw [List.append_nil]; rfl, rfl, fun _ => rfl, fun _ _ h => h⟩
  unfold State.replan
  split
  · next p t hp ht =>
    split
    · obtain ⟨c, o, h, hw, ho⟩ := State.applySuspension_only
        ({ s with planner := { s.planner with inForce := some (makePlan t s.planPeriod), stale := false } } : State)
      refine ⟨_, c, o, h, hw, ho, fun t' ht' _ => ?_⟩
      rw [ht'] at ht
      rw [Option.some.inj ht]
    · exact keep
  · exact keep

/-! ## The roll slot start taken over (R28, R35) -/

theorem petitionCell_slot (p i : Nat) : petitionCell p ≠ (0, i) := by
  intro h
  have : (p - 1) % 4 + 1 = 0 := congrArg Prod.fst h
  omega

theorem applicantCell_slot (n i : Nat) : applicantCell n ≠ some (0, i) := by
  unfold applicantCell
  split
  · intro h
    have : n % 4 + 1 = 0 := congrArg Prod.fst (Option.some.inj h)
    omega
  · exact nofun

theorem State.channelCell_withEnds (s : State) (slot : Nat) : ∃ u v, s.channelCell slot = s.withEnds u v := by
  have send : ∀ ch, ∃ u v, s.sendChannel ch = s.withEnds u v := by
    intro ch
    unfold State.sendChannel
    split
    · rw [State.sendOwn_where]
      exact s.sendWhere_withEnds _ _
    · exact ⟨s.e1, s.e2, rfl⟩
  unfold State.channelCell
  split
  · split
    · exact send _
    · exact ⟨s.e1, s.e2, rfl⟩
  · exact ⟨s.e1, s.e2, rfl⟩

/-- In slot 0 a follower sends its live copy at most. -/
theorem State.cell_zero {s : State} (h : s.form.node ≠ .lead) : ∃ u v, s.cell 0 = s.withEnds u v := by
  have same : ∃ u v, s = s.withEnds u v := ⟨s.e1, s.e2, rfl⟩
  unfold State.cell
  rw [if_neg (by rw [State.leading_of_node h]; exact Bool.false_ne_true)]
  split
  · exact same
  · split
    · split
      · exact same
      · rw [if_neg (petitionCell_slot _ _)]
        exact s.channelCell_withEnds 0
    · split
      · split
        · rw [if_neg (applicantCell_slot _ _)]
          exact same
        · exact same
      · exact same

theorem State.correct_withEnds {s : State} (h : s.form.node ≠ .lead) : ∃ u v n, s.correct =
    ({ s with timer := { s.timer with nextSlot := n } } : State).withEnds u v := by
  unfold State.correct
  split
  · obtain ⟨u, v, hc⟩ := State.cell_zero (s := { s with timer := { s.timer with nextSlot := 0 + 1 } }) h
    exact ⟨u, v, 0 + 1, hc⟩
  · exact ⟨s.e1, s.e2, s.timer.nextSlot, rfl⟩

/-! ## An accepted mark, by stages (R33, R38) -/

/-- Whether a mark is taken as a relock (R38). -/
def State.relocks (s : State) : Bool :=
  decide (s.timer.early = 3) && (decide (s.timer.lock = .locked) || decide (s.timer.lock = .flywheel))

/-- The state as the mark is taken: the timer has its fields, the fast-path mark is gone. -/
def State.atMark (s : State) (e : EndId) (m : MarkFields) (hop : Nat) : State :=
  let s1 := if s.relocks then s.phaseJump m hop else s
  let s2 : State := { s1 with timer := s1.timer.accept s1.now e m hop }
  { s2.turnCycle with form := { s2.form with fastPath := none } }

/-- What follows once the tables stand: yield record, plan, cab, channels, roll slot start. -/
def State.afterMark (x : State) (m : MarkFields) : State :=
  let s5 : State := if x.form.node = .member then { x with form := { x.form with yieldRecord := yieldOf m } } else x
  let s6 := s5.settleCycle
  (if s6.synced then s6.compareCab else s6).takeChannels.correct

theorem State.acceptMark_eq (s : State) (e : EndId) (m : MarkFields) (hop : Nat) :
    s.acceptMark e m hop = (State.formAtMark s (s.atMark e m hop) e m).afterMark m := rfl

theorem State.atMark_eq (s : State) (e : EndId) (m : MarkFields) (hop : Nat) : s.atMark e m hop =
    ({ s with
      timer := s.timer.accept s.now e m hop, form := { s.form with fastPath := none }, chan := s.turnCycle.chan } :
        State).withOutbox (if s.relocks then s.outbox ++ [(rankOther, .phaseJump m.leader
          { round := m.round, index := m.index, tick := 4 * hop } ((s.now : Int) - (s.coastDue : Int)))] else s.outbox) := by
  unfold State.atMark
  cases s.relocks <;> rfl

theorem State.applicantStart_form (s : State) : ∃ ap, s.applicantStart =
    { s with form := { s.form with applicant := ap } } := by
  unfold State.applicantStart
  dsimp only
  split
  · split
    · exact ⟨_, rfl⟩
    · exact ⟨_, rfl⟩
  · exact ⟨s.form.applicant, rfl⟩

/-- What the stages after the tables leave of a follower. -/
structure MarkDone (x t : State) : Prop where
  timer : t.timer = { x.timer with nextSlot := t.timer.nextSlot }
  form : t.form = { x.form with applicant := t.form.applicant, yieldRecord := t.form.yieldRecord }
  link : t.link = x.link
  store : t.store = x.store
  watch : t.chan.watch = x.chan.watch
  outbox : x.chan.watch = [] → ∃ o, t.outbox = x.outbox ++ o ∧ o.length ≤ 1
  inForce : ∀ tb, x.form.current = some tb → x.planner.inForce = some (makePlan tb x.planPeriod) →
    t.planner.inForce = some (makePlan tb x.planPeriod)

theorem MarkDone.cab {x y : State} (h : MarkDone x y) (hb : x.chan.watch = [] → y.outbox = x.outbox) (c : Bool) :
    MarkDone x (if c then y.compareCab else y) := by
  cases c
  · exact h
  · obtain ⟨b, o, hc, -⟩ := y.compareCab_only
    have made : ∀ (lost : Bool) (z : State), ∃ o', (if lost then z.notify rankCab (.cab .lost) else z).outbox =
        z.outbox ++ o' ∧ o'.length ≤ 1 := by
      intro lost z
      cases lost
      · exact ⟨[], (List.append_nil _).symm, Nat.zero_le 1⟩
      · exact ⟨[_], rfl, Nat.le_refl 1⟩
    have hl : ∃ o', y.compareCab.outbox = y.outbox ++ o' ∧ o'.length ≤ 1 := made _ _
    obtain ⟨o', ho', hle⟩ := hl
    refine ⟨?_, ?_, ?_, ?_, ?_, fun hw => ⟨o', ?_, hle⟩, ?_⟩
    · show y.compareCab.timer = _
      rw [hc]
      exact h.timer
    · show y.compareCab.form = _
      rw [hc]
      exact h.form
    · show y.compareCab.link = _
      rw [hc]
      exact h.link
    · show y.compareCab.store = _
      rw [hc]
      exact h.store
    · show y.compareCab.chan.watch = _
      rw [hc]
      exact h.watch
    · exact ho'.trans (by rw [hb hw])
    · intro tb h1 h2
      show y.compareCab.planner.inForce = _
      rw [hc]
      exact h.inForce tb h1 h2

theorem MarkDone.channels {x y : State} (h : MarkDone x y) : MarkDone x y.takeChannels := by
  obtain ⟨c, o, hc, hw, -, hn⟩ := y.takeChannels_only
  rw [hc]
  refine ⟨h.timer, h.form, h.link, h.store, hw.trans h.watch, fun hx => ?_, h.inForce⟩
  obtain ⟨o', ho', hl⟩ := h.outbox hx
  refine ⟨o', ?_, hl⟩
  show y.outbox ++ o = _
  rw [hn (h.watch.trans hx), List.append_nil, ho']

theorem MarkDone.correct {x y : State} (h : MarkDone x y) (hn : x.form.node ≠ .lead) : MarkDone x y.correct := by
  obtain ⟨u, v, n, hc⟩ := State.correct_withEnds (s := y) (by rw [h.form]; exact hn)
  rw [hc]
  refine ⟨?_, h.form, h.link, h.store, h.watch, h.outbox, h.inForce⟩
  show ({ y.timer with nextSlot := n } : CycleTimer) = { x.timer with nextSlot := n }
  rw [h.timer]

/-- The stages after the tables (R35, R82, R100, R111, R121, R150). -/
theorem State.afterMark_done {x : State} (hn : x.form.node ≠ .lead) (m : MarkFields) : MarkDone x (x.afterMark m) := by
  let s5 : State := if x.form.node = .member then { x with form := { x.form with yieldRecord := yieldOf m } } else x
  have h5 : ∃ y, s5 = { x with form := { x.form with yieldRecord := y } } := by
    by_cases h : x.form.node = .member
    · exact ⟨yieldOf m, if_pos h⟩
    · exact ⟨x.form.yieldRecord, if_neg h⟩
  obtain ⟨y, hy⟩ := h5
  obtain ⟨p, c, o, hr, hw, ho, hp⟩ := s5.replan_planned
  obtain ⟨ap, ha⟩ := s5.replan.applicantStart_form
  have h6 : MarkDone x s5.settleCycle ∧ (x.chan.watch = [] → s5.settleCycle.outbox = x.outbox) := by
    have hs : s5.settleCycle = (({ x with
        form := { x.form with applicant := ap, yieldRecord := y }, planner := p, chan := c } : State).withOutbox
          (x.outbox ++ o)) := by
      show s5.replan.applicantStart = _
      rw [ha, hr, hy]
      rfl
    have hout : x.chan.watch = [] → s5.settleCycle.outbox = x.outbox := by
      intro hx
      rw [hs]
      show x.outbox ++ o = _
      rw [ho (by rw [hy]; exact hx), List.append_nil]
    refine ⟨⟨by rw [hs]; rfl, by rw [hs]; rfl, by rw [hs]; rfl, by rw [hs]; rfl, ?_, fun hx => ⟨[], ?_, Nat.zero_le 1⟩,
      fun tb h1 h2 => ?_⟩, hout⟩
    · rw [hs]
      exact hw.trans (by rw [hy])
    · rw [hout hx, List.append_nil]
    · have h5p : s5.planPeriod = x.planPeriod := by rw [hy]; rfl
      rw [hs]
      exact (hp tb (by rw [hy]; exact h1) (by rw [h5p, hy]; exact h2)).trans (by rw [h5p])
  exact (((h6.1.cab h6.2 s5.settleCycle.synced).channels).correct hn)

end Sys2Proof.Machine
end

section
/-! PROOFS. Marks judged by a member: acceptable, alien, early, taken; the tables at an accepted mark (R33 to R36, R38, R41,
R56, R59, R60, R63, R140). -/

namespace Sys2Proof.Machine

open Sys2Proof

/-! ## A mark that comes to an inner end (R9, R33) -/

theorem mark_judged {s : State} {e : EndId} {os : List Octet} {m : MarkFields} {k : Nat} (h : MarkComes s e os m false)
    (hn : s.form.node ≠ .detached ∧ s.form.node ≠ .listen ∧ s.form.node ≠ .applicant) :
    ∃ z, exec (.markReceived k e os) s = finish (s.recordCame k e os) (z.judgeMark e m (recordHop os)) ∧ CameTo s k z := by
  obtain ⟨hp, hm, hs, ho, hg, hd⟩ := h
  obtain ⟨z, hr, hz⟩ := receive_inward (k := k) hg hp (State.condition_active hp hn hm hs) ho fun p s => s.handMark e os p
  have hh : z.handMark e os .inward = z.judgeMark e m (recordHop os) := by
    unfold State.handMark
    dsimp only
    rw [hd]
  exact ⟨z, (exec_markReceived s k e os).trans (hr.trans (congrArg _ hh)), hz⟩

section
variable {s z : State} {k : Nat} (hz : CameTo s k z)
include hz

theorem CameTo.reference : z.timer.reference = s.timer.reference := by rw [hz.passed.timer]
theorem CameTo.tolerance : z.tolerance = s.tolerance := by rw [State.tolerance, State.tolerance, hz.passed.settings]

theorem CameTo.windowOpen : z.windowOpen = s.windowOpen := by
  rw [State.windowOpen, State.windowOpen, hz.reference, hz.passed.period, hz.tolerance]

theorem CameTo.windowClose : z.windowClose = s.windowClose := by
  rw [State.windowClose, State.windowClose, hz.reference, hz.passed.period, hz.tolerance]

theorem CameTo.coastDue : z.coastDue = s.coastDue := by
  rw [State.coastDue, State.coastDue, hz.reference, hz.passed.period]

end

/-! ## Which marks are acceptable, alien, advances (R33, R41) -/

theorem State.followedMark_eq {s : State} {l : Tag} {ep : Epoch} (h : s.timer.followed = some (l, ep)) (m : MarkFields) :
    s.followedMark m = (l == m.leader && (m.epoch == ep || m.epoch == ep + 1)) := by
  unfold State.followedMark
  rw [h]

theorem State.successorMark_eq {s : State} {l : Tag} {ep : Epoch} (h : s.timer.followed = some (l, ep))
    (hn : s.form.node ≠ .applicant) (m : MarkFields) :
    s.successorMark m = (m.epoch == ep + 1 && m.leader != s.ownTag && holdsTag s.entries m.leader) := by
  unfold State.successorMark State.knownEntries
  rw [h, if_neg hn]

theorem State.advances_eq {s : State} {l : Tag} {ep : Epoch} (h : s.timer.followed = some (l, ep)) (m : MarkFields) :
    s.advances m = (m.epoch == ep + 1 && (l == m.leader || s.successorMark m)) := by
  unfold State.advances
  rw [h]

theorem State.acceptable_member {s : State} {e : EndId} {m : MarkFields} (hn : s.form.node = .member)
    (hu : s.upstream = some e) (h : s.followedMark m = true ∨ s.successorMark m = true) : s.acceptable e m = true := by
  unfold State.acceptable
  rw [hn, hu]
  simpa using h

/-- A mark of another tag than the followed leader's, of no other car of the table, is alien to a member (R41). -/
theorem State.alien_member {s : State} {e : EndId} {m : MarkFields} {l : Tag} {ep : Epoch} (hn : s.form.node = .member)
    (hf : s.timer.followed = some (l, ep)) (hl : m.leader ≠ l)
    (h : m.leader = s.ownTag ∨ holdsTag s.entries m.leader = false) :
    s.acceptable e m = false ∧ s.alien m = true := by
  have hfm : s.followedMark m = false := by
    rw [State.followedMark_eq hf, beq_eq_false_iff_ne.mpr (Ne.symm hl)]
    rfl
  have hsm : s.successorMark m = false := by
    rw [State.successorMark_eq hf (by rw [hn]; decide)]
    rcases h with h | h <;> simp [h]
  refine ⟨?_, ?_⟩
  · unfold State.acceptable
    rw [hn, hfm, hsm]
    exact Bool.and_false _
  · unfold State.alien
    rw [hn, hsm, hf]
    simp [Ne.symm hl]

theorem State.judgeMark_alien {s : State} {e : EndId} {m : MarkFields} (h : s.acceptable e m = false ∧ s.alien m = true)
    (hop : Nat) : s.judgeMark e m hop = s.alienMark := by
  unfold State.judgeMark
  rw [if_neg (by rw [h.1]; decide), if_pos h.2]

section
variable {s : State} {e : EndId} {m : MarkFields} (ha : s.acceptable e m = true)
  (hl : s.timer.lock = .locked ∨ s.timer.lock = .flywheel) (hop : Nat)
include ha hl

theorem State.judgeMark_locked : s.judgeMark e m hop = if s.timer.early = 3 then s.acceptMark e m hop
    else if s.now < s.windowOpen then s.earlyMark else if s.now ≤ s.windowClose then s.acceptMark e m hop else s := by
  unfold State.judgeMark
  rw [if_pos ha]
  rcases hl with hl | hl <;> rw [hl]

/-- An acceptable mark in the window is accepted (R35). -/
theorem State.judgeMark_inWindow (h : InWindow s s.now) : s.judgeMark e m hop = s.acceptMark e m hop := by
  rw [State.judgeMark_locked ha hl]
  split
  · rfl
  · rw [if_neg (Nat.not_lt.mpr h.1), if_pos h.2]

end

/-! ## The tables at an accepted mark: none, the followed leader's, a successor's (R56, R59, R60, R63, R140) -/

theorem FormationUnit.compareMark_kept (m : MarkFields) (f : FormationUnit) : (f.compareMark m).node = f.node
    ∧ (f.compareMark m).current = f.current := by
  unfold FormationUnit.compareMark
  dsimp only
  split <;> split <;> exact ⟨rfl, rfl⟩

/-- A mark of the followed epoch in a SYNCED member: only what is gathered is compared (R56). -/
theorem State.formAtMark_plain {old s : State} {e : EndId} {m : MarkFields} (hn : old.form.node = .member)
    (ha : old.advances m = false) (hs : s.synced = true) : ∃ f p, State.formAtMark old s e m =
      { s with form := f, planner := p } ∧ f.node = s.form.node ∧ f.current = s.form.current := by
  obtain ⟨h1, h2⟩ := s.form.compareMark_kept m
  let x : State := ({ s with form := s.form.compareMark m } : State).withShadows s.form
  have hx : x.synced = true := by
    rw [← hs]
    show ((s.form.compareMark m).node == _ && (s.form.compareMark m).current.isSome &&
      ((s.form.compareMark m).current.map Table.epoch == _)) = _
    rw [h1, h2]
    rfl
  refine ⟨s.form.compareMark m, x.planner, ?_, h1, h2⟩
  unfold State.formAtMark
  rw [hn]
  dsimp only
  rw [if_neg (by rw [ha]; decide)]
  exact State.lateInstall_of (.inl hx)

theorem State.formAtMark_advance {old s : State} {e : EndId} {m : MarkFields} (hn : old.form.node = .member)
    (ha : old.advances m = true) : State.formAtMark old s e m =
      if old.timer.followed.map Prod.fst = some m.leader then s.memberAdvance m else s.succeed m := by
  unfold State.formAtMark
  rw [hn]
  exact if_pos ha

/-- What the tables at an accepted mark leave of a follower's other blocks. -/
structure TablesDone (s x : State) : Prop where
  timer : x.timer = s.timer
  node : x.form.node ≠ .lead

theorem State.becomeApplicant_done {s : State} (h : s.form.node ≠ .lead) (t : Table) : TablesDone s (s.becomeApplicant t) := by
  have lose : ∀ x : State, x.loseCab.timer = x.timer ∧ x.loseCab.form = x.form := by
    intro x
    unfold State.loseCab
    dsimp only
    split <;> exact ⟨rfl, rfl⟩
  have follows : ∀ x : State, x.discardWants.dropLive.loseCab.timer = x.timer
      ∧ x.discardWants.dropLive.loseCab.form = x.form := by
    intro x
    obtain ⟨o, ho⟩ := x.discardWants_only
    obtain ⟨h1, h2⟩ := lose x.discardWants.dropLive
    refine ⟨h1.trans ?_, h2.trans ?_⟩ <;> rw [ho] <;> rfl
  unfold State.becomeApplicant
  dsimp only
  refine ⟨(follows _).1.trans (if_neg (by simpa using h)), fun hc => ?_⟩
  have hnode : NodeState.applicant = .lead := (congrArg FormationUnit.node (follows _).2).symm.trans hc
  cases hnode

theorem State.install_done {s : State} (h : s.form.node ≠ .lead) (t : Table) : TablesDone s (s.install t) := by
  unfold State.install
  split
  · obtain ⟨p, o, hi, -⟩ := s.installOwn_eq t
    rw [hi]
    exact ⟨rfl, h⟩
  · exact State.becomeApplicant_done h t

theorem State.memberAdvance_done {s : State} (h : s.form.node ≠ .lead) (m : MarkFields) : TablesDone s (s.memberAdvance m) := by
  unfold State.memberAdvance
  split
  · next found _ =>
    have hi := State.install_done h found.1
    unfold State.partedAs
    split
    · exact ⟨hi.timer, hi.node⟩
    · exact hi
  · exact ⟨rfl, h⟩

/-- The pending table of the new epoch is installed (R59, R61). -/
theorem State.memberAdvance_pending {s : State} {m : MarkFields} {t : Table} (hn : s.form.node = .member)
    (hp : s.form.pendingT = some t) (he : t.epoch = m.epoch) (hl : holdsTag t.entries m.leader = true)
    (ho : holdsTag t.entries s.ownTag = true) : (s.memberAdvance m).form.current = some t
      ∧ (s.memberAdvance m).form.node = .member ∧ (s.memberAdvance m).form.pendingT = none
      ∧ (s.memberAdvance m).planner.inForce = some (makePlan t s.period)
      ∧ (s.memberAdvance m).planPeriod = s.period := by
  have ht : s.tableOf m.epoch m.leader = some (t, none) := by
    unfold State.tableOf
    dsimp only
    rw [hp, Option.filter_some, if_pos (by simp [he, hl])]
  obtain ⟨p, o, hi, hpl, -⟩ := s.installOwn_eq t
  have hm : s.memberAdvance m = s.installed t p o := by
    unfold State.memberAdvance
    rw [ht]
    exact (State.install_of_holds ho).trans hi
  have hper : s.planPeriod = s.period := if_neg (by rw [hn]; decide)
  rw [hm]
  refine ⟨rfl, hn, ?_, by rw [← hper]; exact hpl, hper⟩
  show keepTableAbove t.epoch s.form.pendingT = none
  rw [hp]
  exact keepTableAbove_of_epoch rfl

/-- With no table of the new epoch the member gathers anew (R59, R60). -/
theorem State.memberAdvance_anew {s : State} {m : MarkFields} (hp : s.form.pendingT = none) (ha : s.form.armedA = none)
    (hb : s.form.armedB = none) : (s.memberAdvance m).form.current = s.form.current
      ∧ (s.memberAdvance m).form.node = s.form.node := by
  have ht : s.tableOf m.epoch m.leader = none := by
    unfold State.tableOf
    dsimp only
    rw [hp, ha, hb]
    rfl
  unfold State.memberAdvance
  rw [ht]
  exact ⟨rfl, rfl⟩

/-- A member as a successor's mark finds it, before its tables follow (R140). -/
def State.succeeding (s : State) : State :=
  (if s.form.node = .orphan then
    ({ s with form := { s.form with node := .member, fastPath := none } } : State).rewindWants
  else { s with form := { s.form with node := .member, fastPath := none } }).forgetJoins

theorem State.succeeding_only (s : State) : s.succeeding.timer = s.timer ∧ s.succeeding.ownTag = s.ownTag
    ∧ s.succeeding.form = { s.form with node := .member, fastPath := none } := by
  have forget : ∀ x : State, x.forgetJoins.timer = x.timer ∧ x.forgetJoins.ownTag = x.ownTag
      ∧ x.forgetJoins.form = x.form := fun _ => ⟨rfl, rfl, rfl⟩
  unfold State.succeeding
  split <;> exact forget _

/-- Without armed tables every gathered table is gone (R140). -/
theorem State.succeed_discards {s : State} (ha : s.form.armedA = none) (m : MarkFields) :
    s.succeed m = s.succeeding.discardGathered := by
  unfold State.succeed State.succeeding
  dsimp only
  rw [ha]

/-- A member armed complete under the successor's epoch, which is the designated leader's, installs armed table B (R63). -/
theorem State.succeed_armed {s : State} {a b : Table} {m : MarkFields} (ha : s.form.armedA = some a)
    (hb : s.form.armedB = some b) (hd : s.form.designatedB = some m.leader) (hl : holdsTag b.entries m.leader = true)
    (ho : holdsTag b.entries s.ownTag = true) (hn : m.n = b.size) (h1 : a.epoch = m.epoch) (h2 : b.epoch = m.epoch) :
    s.succeed m = (s.succeeding.installOwn b).parted false b s.armedJoint := by
  unfold State.succeed
  dsimp only
  rw [ha, hb]
  dsimp only
  have hb' : (a.epoch == m.epoch && b.epoch == m.epoch && s.form.designatedB == some m.leader) = true := by
    simp [h1, h2, hd]
  rw [if_pos hb', if_pos hl]
  have hown : (holdsTag b.entries s.ownTag && m.n == b.size) = true := by simp [ho, hn]
  dsimp only
  rw [if_pos hown, State.succeeding]
  dsimp only
  rw [ha, hb]

theorem State.succeed_done (s : State) (m : MarkFields) : TablesDone s (s.succeed m)
    ∧ (s.succeed m).form.node = .member ∧ (s.succeed m).form.fastPath = none := by
  obtain ⟨h1, -, h3⟩ := s.succeeding_only
  have discards : TablesDone s s.succeeding.discardGathered ∧ s.succeeding.discardGathered.form.node = .member
      ∧ s.succeeding.discardGathered.form.fastPath = none := by
    have hf : s.succeeding.discardGathered.form = { s.succeeding.form.dropArmed.dropPending with asmCurrent := none } := rfl
    rw [hf, h3]
    refine ⟨⟨h1, ?_⟩, rfl, rfl⟩
    rw [hf, h3]
    show NodeState.member ≠ .lead
    decide
  have takes : ∀ (t : Table) (j : Option (Tag × Tag)), let x := (s.succeeding.installOwn t).parted false t j
      TablesDone s x ∧ x.form.node = .member ∧ x.form.fastPath = none := by
    intro t j x
    obtain ⟨p, o, hi, -⟩ := s.succeeding.installOwn_eq t
    have hx : x = (s.succeeding.installed t p o).parted false t j := by rw [← hi]
    have hnode : x.form.node = .member := by
      rw [hx]
      exact (congrArg FormationUnit.node h3 :)
    refine ⟨⟨?_, by rw [hnode]; decide⟩, hnode, ?_⟩
    · rw [hx]
      exact h1
    · rw [hx]
      rfl
  unfold State.succeed
  dsimp only
  split
  · split
    · exact takes _ _
    · exact discards
  · exact discards

end Sys2Proof.Machine
end

section
/-! PROOFS. Marks heard in LISTEN, marks taken by a member, alien marks (R33 to R36, R38, R41, R45, R59, R60, R63, R140). -/

namespace Sys2Proof.Machine

open Sys2Proof

/-! ## SYNCED, epochs -/

theorem State.synced_iff (s : State) : s.synced = true ↔
    s.form.node = .member ∧ ∃ tb, s.form.current = some tb ∧ s.timer.followed.map Prod.snd = some tb.epoch := by
  unfold State.synced
  cases s.form.current with
  | none => simp
  | some tb =>
    simp only [Option.isSome_some, Option.map_some, Bool.and_true, Bool.and_eq_true, beq_iff_eq]
    constructor
    · rintro ⟨hn, he⟩
      exact ⟨hn, tb, rfl, he.symm⟩
    · rintro ⟨hn, tb', hc, he⟩
      rw [Option.some.inj hc]
      exact ⟨hn, he.symm⟩

theorem epoch_ne_succ (ep : Epoch) : (ep == ep + 1) = false := by
  rw [beq_eq_false_iff_ne]
  intro h
  bv_omega

theorem epoch_pred_succ (ep : Epoch) : ep - 1 + 1 = ep := BitVec.sub_add_cancel ep 1

theorem State.not_synced {s : State} {tb : Table} {ep : Epoch} (hc : s.form.current = some tb)
    (hf : s.timer.followed.map Prod.snd = some ep) (h : tb.epoch = ep - 1) : s.synced = false := by
  rw [Bool.eq_false_iff]
  intro hs
  obtain ⟨-, tb', hc', hf'⟩ := (State.synced_iff s).mp hs
  rw [hc] at hc'
  rw [hf, ← Option.some.inj hc', h] at hf'
  have he := epoch_ne_succ (ep - 1)
  rw [epoch_pred_succ, ← Option.some.inj hf'] at he
  simp at he

/-! ## A mark taken (R33) -/

section
variable {s z x b : State} {k : Nat} {e : EndId} {m : MarkFields} {hop : Nat} (hd : TablesDone (z.atMark e m hop) x)
  (hx : State.formAtMark z (z.atMark e m hop) e m = x)
include hd hx

/-- The timer takes the mark's fields, and but for the roll slot start nothing else (R33). -/
theorem taken_timer (hz : CameTo s k z) : ∃ n, (State.settle b (z.acceptMark e m hop)).timer =
    { s.timer.accept (s.now + k) e m hop with nextSlot := n } := by
  have h := State.afterMark_done hd.node m
  refine ⟨(x.afterMark m).timer.nextSlot, ?_⟩
  rw [settle_timer, State.acceptMark_eq, hx, h.timer, hd.timer, State.atMark_eq]
  show ({ z.timer.accept z.now e m hop with nextSlot := _ } : CycleTimer) = _
  rw [hz.now, hz.passed.timer]
  rfl

theorem taken_form : ∃ ap y, (State.settle b (z.acceptMark e m hop)).form =
    { x.form with applicant := ap, yieldRecord := y } := by
  have h := State.afterMark_done hd.node m
  refine ⟨(x.afterMark m).form.applicant, (x.afterMark m).form.yieldRecord, ?_⟩
  rw [settle_form, State.acceptMark_eq, hx]
  exact h.form

end

/-- A member at the mark it takes, before its tables follow (R33). -/
theorem CameTo.atMark_form {s z : State} {k : Nat} (hz : CameTo s k z) (hn : s.form.node = .member) (e : EndId)
    (m : MarkFields) (hop : Nat) : (z.atMark e m hop).form = { s.form with fastPath := none } := by
  rw [State.atMark_eq]
  show ({ z.form with fastPath := none } : FormationUnit) = _
  rw [hz.form, State.advance_form_of (by rw [hn]; decide)]

theorem CameTo.atMark_node {s z : State} {k : Nat} (hz : CameTo s k z) (hn : s.form.node = .member) (e : EndId)
    (m : MarkFields) (hop : Nat) : (z.atMark e m hop).form.node = .member := by
  rw [hz.atMark_form hn]
  exact hn

theorem CameTo.atMark_ownTag {s z : State} {k : Nat} (hz : CameTo s k z) (e : EndId) (m : MarkFields) (hop : Nat) :
    (z.atMark e m hop).ownTag = s.ownTag := by
  rw [State.atMark_eq]
  exact hz.passed.ownTag

theorem State.atMark_followed (z : State) (e : EndId) (m : MarkFields) (hop : Nat) :
    (z.atMark e m hop).timer.followed = some (m.leader, m.epoch) ∧ (z.atMark e m hop).timer.period = some m.period := by
  rw [State.atMark_eq]
  exact ⟨rfl, rfl⟩

/-- A mark of the followed leader and epoch changes no table of a SYNCED member (R33, R56). -/
theorem followed_mark_plain {s z : State} {k : Nat} {e : EndId} {m : MarkFields} (hz : CameTo s k z) (hs : s.synced = true)
    (hf : s.timer.followed = some (m.leader, m.epoch)) (hop : Nat) :
    ∃ f p, State.formAtMark z (z.atMark e m hop) e m = { z.atMark e m hop with form := f, planner := p }
      ∧ f.node = .member ∧ f.current = s.form.current := by
  obtain ⟨hn, tb, hc, he⟩ := (State.synced_iff s).mp hs
  have hform := hz.atMark_form hn e m hop
  have hadv : z.advances m = false := by
    rw [State.advances_eq (hz.passed.followed.trans hf), epoch_ne_succ]
    rfl
  have hsync : (z.atMark e m hop).synced = true := by
    refine (State.synced_iff _).mpr ⟨hz.atMark_node hn e m hop, tb, by rw [hform]; exact hc, ?_⟩
    rw [(z.atMark_followed e m hop).1, ← he, hf]
  obtain ⟨f, p, hx, h1, h2⟩ := State.formAtMark_plain (e := e) (hz.passed.node.trans hn) hadv hsync
  exact ⟨f, p, hx, h1.trans (hz.atMark_node hn e m hop), h2.trans (by rw [hform])⟩

/-! ## LISTEN (R45) -/

/-- A good record that comes to an end in BYPASS is handed on along the bypass (R8). -/
theorem receive_bypass {s : State} {k : Nat} {e : EndId} {kind : Octet} {os : List Octet} (hg : goodRecordOf kind os = true)
    (hp : s.powered = true) (hc : s.condition e = .bypass) (hand : Path → State → State) :
    ∃ z, receive k e kind os s hand = finish (s.recordCame k e os) (hand .bypass z) ∧ CameTo s k z := by
  have hcame := s.recordCame_came k e os
  have hpath : (s.recordCame k e os).pathOf e os = .bypass := by
    have hp0 : (s.recordCame k e os).path e = .bypass := by
      unfold State.path
      rw [hcame.passed.condition (hcame.ends e), hc]
    unfold State.pathOf
    rw [hp0]
    rfl
  refine ⟨_, (receive_good hg hp hand).trans ?_, hcame.passOn e .bypass (s.now + k) os.length (relayCopy os)⟩
  rw [hpath]

/-- The third mark of one leader (R45). -/
theorem State.listenTo_third {s : State} {m : MarkFields} (h : s.form.listenCandidate = some (m.leader, 2)) :
    s.listenTo m = s.applyTo m.leader m.epoch := by
  unfold State.listenTo
  rw [h]
  dsimp only
  rw [if_pos rfl]
  exact if_pos (by decide)

theorem third_mark_applies {s : State} {e : EndId} {os : List Octet} {m : MarkFields} {k : Nat} (hp : s.powered = true)
    (hn : s.form.node = .listen) (hm : (s.endUnit e).mode = .line) (hg : goodRecordOf kindMark os = true)
    (hd : decodeMark os = some m) (hl : s.form.listenCandidate = some (m.leader, 2)) :
    ∃ t, exec (.markReceived k e os) s = .next t ∧ t.form.node = .applicant
      ∧ t.timer.followed = some (m.leader, m.epoch) ∧ t.form.listenCandidate = none
      ∧ t.form.applicant.map ApplicantRecord.status = some .gathering ∧ t.form.current = s.form.current := by
  have hc : s.condition e = .bypass := by simp [State.condition, hp, hm, hn]
  obtain ⟨z, hr, hz⟩ := receive_bypass (k := k) hg hp hc fun p s => s.handMark e os p
  have hcand : z.form.listenCandidate = some (m.leader, 2) := by rw [hz.passed.form]; exact hl
  have hh : z.handMark e os .bypass = z.applyTo m.leader m.epoch := by
    unfold State.handMark
    dsimp only
    rw [hd]
    dsimp only
    rw [hz.passed.node, hn]
    exact State.listenTo_third hcand
  rw [hh] at hr
  refine ⟨_, (exec_markReceived s k e os).trans hr, ?_, ?_, ?_, ?_, ?_⟩
  · rw [settle_form]; rfl
  · rw [settle_timer]; rfl
  · rw [settle_form]; rfl
  · rw [settle_form]; rfl
  · rw [settle_form]; exact hz.passed.current

/-! ## Alien marks (R41) -/

theorem alien_mark_noted {s : State} {e : EndId} {os : List Octet} {m : MarkFields} {k : Nat}
    (h : MarkComes s e os m false) (hrest : AtRest s)
    (ha : s.form.node = .lead ∨ (s.form.node = .member ∧ ∃ l ep, s.timer.followed = some (l, ep) ∧ m.leader ≠ l
      ∧ (m.leader = s.ownTag ∨ holdsTag s.entries m.leader = false))) :
    let u := s.advance k
    ∃ t, exec (.markReceived k e os) s = .next t ∧ t.timer = u.timer ∧ t.form = u.form ∧ t.pet = u.pet
      ∧ t.link = { s.link with flags := { s.link.flags with alienMarks := true } } := by
  intro u
  have hn : s.form.node = .lead ∨ s.form.node = .member := ha.imp_right And.left
  obtain ⟨z, hx, hz⟩ := mark_judged (k := k) h (by rcases hn with hn | hn <;> rw [hn] <;> decide)
  have halien : z.acceptable e m = false ∧ z.alien m = true := by
    rcases ha with ha | ⟨ha, l, ep, hf, hl, ho⟩
    · have hzn : z.form.node = .lead := hz.passed.node.trans ha
      unfold State.acceptable State.alien
      rw [hzn]
      exact ⟨rfl, rfl⟩
    · exact State.alien_member (hz.passed.node.trans ha) (hz.passed.followed.trans hf) hl
        (by rw [hz.passed.ownTag, hz.passed.entries]; exact ho)
  rw [State.judgeMark_alien halien] at hx
  have hzl : z.alienMark.link = { s.link with flags := { s.link.flags with alienMarks := true } } := by
    rw [← hz.link]
    rfl
  have hrest' : AtRest z.alienMark := ⟨hz.outbox.trans hrest.1, by rw [hzl]; exact hrest.2⟩
  refine ⟨_, hx, ?_, ?_, ?_, (settle_link_atRest hrest').trans hzl⟩
  · rw [settle_timer]; exact hz.timer
  · rw [settle_form]; exact hz.form
  · rw [settle_pet]; exact hz.pet

end Sys2Proof.Machine
end

section
/-! PROOFS. Marks taken by a member: of the followed leader, early, relock, epoch advance, of a successor (R33 to R38, R59,
R60, R63, R140). -/

namespace Sys2Proof.Machine

open Sys2Proof

/-- A member in LOCKED or FLYWHEEL judges a mark it may follow at its upstream end (R33). -/
structure Follows (s : State) (k : Nat) (e : EndId) (m : MarkFields) (z : State) : Prop where
  came : CameTo s k z
  node : s.form.node = .member
  lock : z.timer.lock = .locked ∨ z.timer.lock = .flywheel
  acceptable : z.acceptable e m = true

theorem mark_followed {s : State} {e : EndId} {os : List Octet} {m : MarkFields} {k : Nat} (h : MarkComes s e os m false)
    (hn : s.form.node = .member) (hl : s.timer.lock = .locked ∨ s.timer.lock = .flywheel) (hu : s.upstream = some e)
    (hm : s.followedMark m = true ∨ s.successorMark m = true) :
    ∃ z, exec (.markReceived k e os) s = finish (s.recordCame k e os) (z.judgeMark e m (recordHop os))
      ∧ Follows s k e m z := by
  obtain ⟨z, hx, hz⟩ := mark_judged (k := k) h (by rw [hn]; decide)
  have hf : z.followedMark m = s.followedMark m := by
    rw [State.followedMark, State.followedMark, hz.passed.followed]
  have hsm : z.successorMark m = s.successorMark m := by
    rw [State.successorMark, State.successorMark, hz.passed.followed, hz.passed.ownTag, State.knownEntries,
      State.knownEntries, hz.passed.node, if_neg (by rw [hn]; decide), if_neg (by rw [hn]; decide), hz.passed.entries]
  exact ⟨z, hx, hz, hn, by rw [hz.passed.timer]; exact hl,
    State.acceptable_member (hz.passed.node.trans hn) (hz.passed.upstream.trans hu) (by rw [hf, hsm]; exact hm)⟩

theorem followedMark_of {s : State} {m : MarkFields} (h : s.timer.followed = some (m.leader, m.epoch)
    ∨ s.timer.followed = some (m.leader, m.epoch - 1)) : s.followedMark m = true := by
  rcases h with h | h
  · rw [State.followedMark_eq h]
    simp
  · rw [State.followedMark_eq h, epoch_pred_succ]
    simp

section
variable {s z : State} {k : Nat} {e : EndId} {m : MarkFields} (h : Follows s k e m z) (hop : Nat)
include h

theorem Follows.early : z.timer.early = s.timer.early := by rw [h.came.passed.timer]

/-- Before the window, and with no relock armed, the mark is early (R36). -/
theorem Follows.judged_early (he : s.timer.early < 3) (ho : s.now + k < s.windowOpen) :
    z.judgeMark e m hop = z.earlyMark := by
  rw [State.judgeMark_locked h.acceptable h.lock, if_neg (by rw [h.early]; omega),
    if_pos (by rw [h.came.now, h.came.windowOpen]; exact ho)]

theorem Follows.judged_inWindow (hw : InWindow s (s.now + k)) : z.judgeMark e m hop = z.acceptMark e m hop :=
  State.judgeMark_inWindow h.acceptable h.lock hop (by
    rw [h.came.now]
    exact ⟨by rw [h.came.windowOpen]; exact hw.1, by rw [h.came.windowClose]; exact hw.2⟩)

/-- A relock takes the mark wherever it falls (R38). -/
theorem Follows.judged_relock (he : s.timer.early = 3) : z.judgeMark e m hop = z.acceptMark e m hop := by
  rw [State.judgeMark_locked h.acceptable h.lock, if_pos (h.early.trans he)]

theorem Follows.relocks : z.relocks = decide (s.timer.early = 3) := by
  unfold State.relocks
  rw [h.early]
  rcases h.lock with hl | hl <;> rw [hl] <;> simp

end

/-! ## The followed leader's marks (R33 to R38) -/

/-- What a mark of the followed leader and epoch brings to a SYNCED member that takes it (R33). -/
theorem plain_mark_told {s z b : State} {k : Nat} {e : EndId} {m : MarkFields} {hop : Nat} (hz : CameTo s k z)
    (hs : s.synced = true) (hf : s.timer.followed = some (m.leader, m.epoch)) :
    let t := State.settle b (z.acceptMark e m hop)
    (∃ n, t.timer = { s.timer.accept (s.now + k) e m hop with nextSlot := n }) ∧ t.form.node = .member
      ∧ t.form.current = s.form.current := by
  intro t
  obtain ⟨f, p, hx, h1, h2⟩ := followed_mark_plain (e := e) hz hs hf hop
  have hd : TablesDone (z.atMark e m hop) ({ z.atMark e m hop with form := f, planner := p } : State) :=
    ⟨rfl, by show f.node ≠ .lead; rw [h1]; decide⟩
  obtain ⟨ap, y, hform⟩ := taken_form (b := b) hd hx
  refine ⟨taken_timer hd hx hz, ?_, ?_⟩
  · rw [hform]; exact h1
  · rw [hform]; exact h2

/-- A relock is noticed with PHASE_JUMP (R38). -/
theorem relock_noticed {s z b : State} {k : Nat} {e : EndId} {m : MarkFields} {hop : Nat} (h : Follows s k e m z)
    (hs : s.synced = true) (hf : s.timer.followed = some (m.leader, m.epoch)) (he : s.timer.early = 3) (hrest : AtRest s)
    (hw : s.chan.watch = []) (hn : s.link.notices.length ≤ 30) :
    Queues (State.settle b (z.acceptMark e m hop)) (.phaseJump m.leader
      { round := m.round, index := m.index, tick := 4 * hop }
      (((s.now + k : Nat) : Int) - ((s.timer.reference.getD 0 + s.period : Nat) : Int))) := by
  obtain ⟨f, p, hx, h1, -⟩ := followed_mark_plain (e := e) h.came hs hf hop
  have hat := z.atMark_eq e m hop
  rw [h.relocks, he, h.came.outbox, hrest.1] at hat
  let x : State := { z.atMark e m hop with form := f, planner := p }
  have hd := State.afterMark_done (x := x) (by show f.node ≠ .lead; rw [h1]; decide) m
  have hxw : x.chan.watch = [] := by
    show (z.atMark e m hop).chan.watch = _
    rw [hat]
    show z.chan.watch = []
    rw [h.came.passed.chan]
    exact hw
  have hxo : x.outbox = [(rankOther, .phaseJump m.leader { round := m.round, index := m.index, tick := 4 * hop }
      (((s.now + k : Nat) : Int) - ((s.timer.reference.getD 0 + s.period : Nat) : Int)))] := by
    show (z.atMark e m hop).outbox = _
    rw [hat, h.came.now, h.came.coastDue]
    rfl
  have hxl : x.link = s.link := by
    show (z.atMark e m hop).link = _
    rw [hat]
    exact h.came.link
  obtain ⟨o, ho, hl⟩ := hd.outbox hxw
  rw [State.acceptMark_eq, hx]
  refine settle_queues (r := rankOther) ?_ (by decide) rfl (.inl (hd.watch.trans hxw)) ?_
  · rw [ho, hxo]
    simp
  · rw [ho, hxo, hd.link, hxl, List.length_append, List.length_singleton]
    omega

/-- An early mark is counted once, while its hold stands no further one (R36). -/
theorem State.earlyMark_timer {s : State} (h : s.timer.early < 3) : s.earlyMark.form = s.form
    ∧ s.earlyMark.timer = if s.timer.earlyHold then s.timer
      else { s.timer with early := s.timer.early + 1, earlyHold := true, earlySeen := true } := by
  unfold State.earlyMark
  split
  · exact ⟨rfl, rfl⟩
  · refine ⟨rfl, ?_⟩
    rw [Nat.min_eq_right (by omega)]

/-! ## The epoch advance of the followed leader, and of a successor (R59, R60, R63, R140) -/

/-- What a mark of the epoch above brings to a member that takes it (R59). -/
theorem advance_taken {s z : State} {k : Nat} {e : EndId} {m : MarkFields} (hz : CameTo s k z)
    (hn : s.form.node = .member) {l : Tag} (hf : s.timer.followed = some (l, m.epoch - 1))
    (hm : l = m.leader ∨ s.successorMark m = true) (hop : Nat) :
    State.formAtMark z (z.atMark e m hop) e m = if l = m.leader then (z.atMark e m hop).memberAdvance m
      else (z.atMark e m hop).succeed m := by
  have hzn := hz.passed.node.trans hn
  have hzf := hz.passed.followed.trans hf
  have hsm : z.successorMark m = s.successorMark m := by
    rw [State.successorMark_eq hzf (by rw [hzn]; decide), State.successorMark_eq hf (by rw [hn]; decide),
      hz.passed.ownTag, hz.passed.entries]
  have hadv : z.advances m = true := by
    rw [State.advances_eq hzf, epoch_pred_succ, hsm]
    simpa using hm
  refine (State.formAtMark_advance hzn hadv).trans (if_congr ?_ rfl rfl)
  rw [hzf]
  exact ⟨Option.some.inj, congrArg some⟩

/-- The epoch advance of the followed leader at a SYNCED member (R59, R60). -/
theorem epoch_advance_told {s z b : State} {k : Nat} {e : EndId} {m : MarkFields} {hop : Nat} (hz : CameTo s k z)
    (hs : s.synced = true) (hf : s.timer.followed = some (m.leader, m.epoch - 1)) :
    let t := State.settle b (z.acceptMark e m hop)
    t.timer.followed = some (m.leader, m.epoch)
      ∧ (∀ t0, s.form.pendingT = some t0 → t0.epoch = m.epoch → holdsTag t0.entries m.leader = true →
        holdsTag t0.entries s.ownTag = true → t.form.current = some t0 ∧ t.synced = true ∧ t.form.pendingT = none
          ∧ t.planner.inForce = some (makePlan t0 m.period))
      ∧ (s.form.pendingT = none → s.form.armedA = none → s.form.armedB = none →
        t.form.node = .member ∧ t.form.current = s.form.current ∧ t.synced = false) := by
  intro t
  obtain ⟨hn, tb, hc, hep⟩ := (State.synced_iff s).mp hs
  have hx := (advance_taken (e := e) hz hn hf (.inl rfl) hop).trans (if_pos rfl)
  have hy := hz.atMark_form hn e m hop
  have hyn := hz.atMark_node hn e m hop
  have hd := State.memberAdvance_done (s := z.atMark e m hop) (by rw [hyn]; decide) m
  obtain ⟨n, ht⟩ := taken_timer (b := b) hd hx hz
  obtain ⟨ap, y, hform⟩ := taken_form (b := b) hd hx
  have hfollowed : t.timer.followed = some (m.leader, m.epoch) := (congrArg CycleTimer.followed ht :)
  refine ⟨hfollowed, fun t0 hp he hl ho => ?_, fun hp ha hb => ?_⟩
  · obtain ⟨h1, h2, h3, h4, h5⟩ := State.memberAdvance_pending (s := z.atMark e m hop) (m := m) hyn
      (by rw [hy]; exact hp) he hl (by rw [hz.atMark_ownTag]; exact ho)
    have hcur : t.form.current = some t0 := (congrArg FormationUnit.current hform :).trans h1
    have hnode : t.form.node = .member := (congrArg FormationUnit.node hform :).trans h2
    have hper : (z.atMark e m hop).period = m.period := by
      rw [State.period, (z.atMark_followed e m hop).2]
      rfl
    have hplan := (State.afterMark_done hd.node m).inForce t0 h1 (by rw [h5]; exact h4)
    refine ⟨hcur, (State.synced_iff t).mpr ⟨hnode, t0, hcur, ?_⟩, (congrArg FormationUnit.pendingT hform :).trans h3, ?_⟩
    · rw [hfollowed, he]
      rfl
    · show (State.settle _ _).planner.inForce = _
      rw [settle_planner, State.acceptMark_eq, hx, hplan, h5, hper]
  · obtain ⟨h1, h2⟩ := State.memberAdvance_anew (s := z.atMark e m hop) (m := m) (by rw [hy]; exact hp)
      (by rw [hy]; exact ha) (by rw [hy]; exact hb)
    have hcur : t.form.current = s.form.current :=
      (congrArg FormationUnit.current hform :).trans (h1.trans (by rw [hy]))
    refine ⟨(congrArg FormationUnit.node hform :).trans (h2.trans hyn), hcur,
      State.not_synced (ep := m.epoch) (hcur.trans hc) (by rw [hfollowed]; rfl) ?_⟩
    rw [hf] at hep
    exact (Option.some.inj hep).symm

/-- A successor's mark at a SYNCED member (R63, R140). -/
theorem successor_told {s z b : State} {k : Nat} {e : EndId} {m : MarkFields} {l : Tag} {hop : Nat} (hz : CameTo s k z)
    (hs : s.synced = true) (hf : s.timer.followed = some (l, m.epoch - 1)) (hl : m.leader ≠ l)
    (hsm : s.successorMark m = true) :
    let t := State.settle b (z.acceptMark e m hop)
    t.timer.followed = some (m.leader, m.epoch) ∧ t.form.node = .member ∧ t.form.fastPath = none
      ∧ (s.form.armedA = none → t.form.current = s.form.current ∧ t.synced = false ∧ t.form.pendingT = none
        ∧ t.form.armedB = none ∧ t.form.asmCurrent = none ∧ t.form.asmPending = none ∧ t.form.asmA = none
        ∧ t.form.asmB = none)
      ∧ (∀ a b, s.form.armedA = some a → s.form.armedB = some b → s.form.designatedB = some m.leader →
        holdsTag b.entries m.leader = true → holdsTag b.entries s.ownTag = true → m.n = b.size →
        a.epoch = m.epoch → b.epoch = m.epoch → t.form.current = some b ∧ t.synced = true) := by
  intro t
  obtain ⟨hn, tb, hc, hep⟩ := (State.synced_iff s).mp hs
  have hx := (advance_taken (e := e) hz hn hf (.inr hsm) hop).trans (if_neg (Ne.symm hl))
  have hy := hz.atMark_form hn e m hop
  obtain ⟨hd, hnode, hfast⟩ := (z.atMark e m hop).succeed_done m
  obtain ⟨-, hown, hsf⟩ := (z.atMark e m hop).succeeding_only
  obtain ⟨n, ht⟩ := taken_timer (b := b) hd hx hz
  obtain ⟨ap, y, hform⟩ := taken_form (b := b) hd hx
  have hfollowed : t.timer.followed = some (m.leader, m.epoch) := (congrArg CycleTimer.followed ht :)
  have htn : t.form.node = .member := (congrArg FormationUnit.node hform :).trans hnode
  refine ⟨hfollowed, htn, (congrArg FormationUnit.fastPath hform :).trans hfast, fun ha => ?_,
    fun a b ha hb hdes hlb hob hnb h1 h2 => ?_⟩
  · have hsx := State.succeed_discards (s := z.atMark e m hop) (by rw [hy]; exact ha) m
    have hf2 : t.form = { ((z.atMark e m hop).succeeding.form.dropArmed.dropPending) with
        asmCurrent := none, applicant := ap, yieldRecord := y } := by
      show (State.settle _ _).form = _
      rw [hform, hsx]
      rfl
    rw [hsf, hy] at hf2
    have hcur : t.form.current = s.form.current := (congrArg FormationUnit.current hf2 :)
    refine ⟨hcur, State.not_synced (ep := m.epoch) (hcur.trans hc) (by rw [hfollowed]; rfl) ?_, ?_⟩
    · rw [hf] at hep
      exact (Option.some.inj hep).symm
    · rw [hf2]
      exact ⟨rfl, rfl, rfl, rfl, rfl, rfl⟩
  · have hsx := State.succeed_armed (s := z.atMark e m hop) (m := m) (by rw [hy]; exact ha) (by rw [hy]; exact hb)
      (by rw [hy]; exact hdes) hlb (by rw [hz.atMark_ownTag]; exact hob) hnb h1 h2
    obtain ⟨p, o, hi, -⟩ := (z.atMark e m hop).succeeding.installOwn_eq b
    have hcur : t.form.current = some b := by
      show (State.settle _ _).form.current = _
      rw [hform, hsx, hi]
      rfl
    refine ⟨hcur, (State.synced_iff t).mpr ⟨htn, b, hcur, ?_⟩⟩
    rw [hfollowed, h2]
    rfl

end Sys2Proof.Machine
end

section
/-! PROOFS. Foreign marks on an outer end: sighted, collected, reported (R14, R16 to R19). -/

namespace Sys2Proof.Machine

open Sys2Proof

/-! ## A foreign mark and an end unit that has not reported (R16, R17) -/

theorem State.mapEnd_congr (s : State) (e : EndId) {f g : EndUnit → EndUnit} (h : f (s.endUnit e) = g (s.endUnit e)) :
    s.mapEnd e f = s.mapEnd e g := by
  cases e
  · exact (congrArg (fun u => { s with e1 := u }) h :)
  · exact (congrArg (fun u => { s with e2 := u }) h :)

section
variable {u : EndUnit} {now : Nat} {m : MarkFields}

theorem EndUnit.foreignMark_quiet (h : u.phase = .quiet) : u.foreignMark now m = u.sight now m := by
  unfold EndUnit.foreignMark
  rw [h]

theorem EndUnit.sameForeign_iff {r : Sighting} (h : u.sighting = some r) :
    u.sameForeign m = true ↔ r.leader = m.leader ∧ r.epoch = m.epoch := by
  unfold EndUnit.sameForeign
  rw [h]
  simp

/-- A further mark of the leader and epoch sighted (R16). -/
theorem EndUnit.foreignMark_again {r : Sighting} (h : u.phase = .sighting) (hr : u.sighting = some r)
    (hs : u.sameForeign m = true) : u.foreignMark now m = { u with
      sighting := some { r with count := min 3 (r.count + 1), arrival := now }
      phase := if r.count < 2 then .sighting else .collecting
      foreign := none } := by
  unfold EndUnit.foreignMark EndUnit.arrived
  rw [h]
  dsimp only
  rw [if_pos hs, hr]
  have hphase : (if 3 ≤ r.count + 1 then DetectPhase.collecting else .sighting) =
      if r.count < 2 then .sighting else .collecting := by
    by_cases hc : r.count < 2
    · rw [if_pos hc, if_neg (by omega)]
    · rw [if_neg hc, if_pos (by omega)]
  rw [← hphase]
  rfl

/-- A mark of another leader or epoch is sighted afresh (R16, R17). -/
theorem EndUnit.foreignMark_other (h : u.phase = .sighting ∨ u.phase = .collecting) (hs : u.sameForeign m = false) :
    (u.foreignMark now m).phase = .sighting ∧ (u.foreignMark now m).sighting = some (sightingOf now m) := by
  unfold EndUnit.foreignMark
  rcases h with h | h <;> rw [h] <;> dsimp only <;> rw [if_neg (by rw [hs]; decide)] <;> exact ⟨rfl, rfl⟩

theorem EndUnit.foreignMark_collecting (h : u.phase = .collecting) (hs : u.sameForeign m = true) :
    u.foreignMark now m = u.arrived now := by
  unfold EndUnit.foreignMark
  rw [h]
  exact if_pos hs

theorem EndUnit.foreignMark_unreported (h : u.phase ≠ .reported) : (u.foreignMark now m).phase ≠ .reported := by
  unfold EndUnit.foreignMark
  split
  · exact nofun
  · split
    · dsimp only
      split <;> exact nofun
    · exact nofun
  · split
    · exact h
    · exact nofun
  · next hr => exact absurd hr h

end

/-- A foreign mark taken by an end unit that has not reported, with its reading of the adjacent car (R16, R18). -/
def EndUnit.markSeen (now : Nat) (m : MarkFields) (hop : Nat) (side : Side) (u : EndUnit) : EndUnit :=
  (u.foreignMark now m).readAdjacent hop .leader side

theorem EndUnit.readAdjacent_keeps (hop : Nat) (src : AdjacentSource) (side : Side) (u : EndUnit) :
    (u.readAdjacent hop src side).phase = u.phase ∧ (u.readAdjacent hop src side).sighting = u.sighting
      ∧ (u.readAdjacent hop src side).foreign = u.foreign ∧ (u.readAdjacent hop src side).mode = u.mode
      ∧ (u.readAdjacent hop src side).segregated = u.segregated := by
  unfold EndUnit.readAdjacent
  split <;> exact ⟨rfl, rfl, rfl, rfl, rfl⟩

theorem EndUnit.markSeen_mode (now : Nat) (m : MarkFields) (hop : Nat) (side : Side) (u : EndUnit) :
    (u.markSeen now m hop side).mode = u.mode := by
  refine (EndUnit.readAdjacent_keeps _ _ _ _).2.2.2.1.trans ?_
  unfold EndUnit.foreignMark
  split
  · rfl
  · split <;> rfl
  · split <;> rfl
  · split <;> rfl

/-- Of an end that has not reported a foreign mark reaches nothing else (R16, R20). -/
theorem State.detectMark_unreported {s : State} {e : EndId} {m : MarkFields} (hl : s.leaderTag ≠ some m.leader)
    (hp : (s.endUnit e).phase ≠ .reported) (hop : Nat) (side : Side) :
    s.detectMark e m hop side = (s.mapEnd e (EndUnit.markSeen s.now m hop side)).tryReport e := by
  have hready : (s.endUnit e).admitSeen s.leaderTag m = false := by
    unfold EndUnit.admitSeen
    split
    · next h _ => exact absurd h hp
    · rfl
  have hwatch : ∀ w : EndUnit, w.phase ≠ .reported → w.watchYield s.leaderTag m = w := by
    intro w hw
    unfold EndUnit.watchYield
    split
    · next h _ => exact absurd h hw
    · rfl
  unfold State.detectMark
  rw [if_neg (Ne.symm hl)]
  dsimp only
  rw [hready]
  refine congrArg (State.tryReport · e) (State.mapEnd_congr s e ?_)
  rw [hwatch _ (EndUnit.foreignMark_unreported hp)]
  rfl

/-! ## The report (R18, R19) -/

/-- Without a foreign table being collected nothing is reported. -/
theorem State.tryReport_idle {s : State} {e : EndId} (h : (s.endUnit e).phase = .sighting ∨ (s.endUnit e).foreign = none) :
    s.tryReport e = s := by
  unfold State.tryReport
  dsimp only
  rcases h with h | h
  · refine if_neg ?_
    have hd : (s.endUnit e).detect ≠ .collecting := by
      unfold EndUnit.detect
      rw [h]
      split <;> exact nofun
    rw [beq_eq_false_iff_ne.mpr hd]
    simp
  · have ht : (s.endUnit e).foreignTable = none := by
      unfold EndUnit.foreignTable
      rw [h]
    have hc : (s.endUnit e).checkFails = false := by
      unfold EndUnit.checkFails
      rw [ht]
    have hr : (s.endUnit e).report (s.fixedEnd e) = none := by
      unfold EndUnit.report
      rw [ht]
    rw [hc, hr]
    split <;> rfl

theorem EndUnit.report_passes {u : EndUnit} {fixed : Bool} {rep : ForeignReport} (h : u.report fixed = some rep) :
    u.checkFails = false := by
  unfold EndUnit.report at h
  unfold EndUnit.checkFails
  split at h
  · next ens p side r ht ha hs =>
    split at h
    · next hok =>
      rw [ht, ha]
      dsimp only
      rw [hok]
      rfl
    · cases h
  · cases h

/-- When a mark arrived is no part of the report. -/
theorem EndUnit.report_arrived (u : EndUnit) (now : Nat) (fixed : Bool) : (u.arrived now).report fixed = u.report fixed := by
  have ht : (u.arrived now).foreignTable = u.foreignTable := rfl
  have hs : (u.arrived now).sighting = u.sighting.map fun r => { r with arrival := now } := rfl
  have hf : (u.arrived now).foreign = u.foreign := rfl
  have ha : (u.arrived now).adjacent = u.adjacent := rfl
  have hp : (u.arrived now).adjacentPosition = u.adjacentPosition := by
    unfold EndUnit.adjacentPosition
    rw [ha, hf, hs]
    cases u.foreign <;> cases u.sighting <;> rfl
  unfold EndUnit.report
  rw [ht, hp, hs]
  cases u.foreignTable with
  | none => rfl
  | some ens =>
    cases u.adjacentPosition with
    | none => rfl
    | some p =>
      cases u.sighting with
      | none => rfl
      | some r => rfl

/-- An end unit that reports the foreign part it has collected (R19). -/
def EndUnit.withReport (rep : ForeignReport) (u : EndUnit) : EndUnit :=
  { u with phase := .reported, watch := .none, answered := false, reported := some rep.header.leader }

theorem State.tryReport_reports {s : State} {e : EndId} {rep : ForeignReport} (hd : s.detecting e = true)
    (hp : (s.endUnit e).phase = .collecting) (hs : (s.endUnit e).segregated = false)
    (hr : (s.endUnit e).report (s.fixedEnd e) = some rep) (hc : (s.endUnit e).contact = .closed) :
    s.tryReport e = (s.mapEnd e (EndUnit.withReport rep)).queueWant (.joinSeen e rep 0) := by
  have hdet : (s.endUnit e).detect = .collecting := by
    unfold EndUnit.detect
    rw [hs, hp]
    rfl
  unfold State.tryReport
  dsimp only
  rw [hd, hdet, EndUnit.report_passes hr, hr]
  exact if_pos hc

end Sys2Proof.Machine
end

section
/-! PROOFS. A foreign mark on an outer end, and O42. -/

namespace Sys2Proof.Machine

open Sys2Proof

/-! ## A foreign mark on an outer end (R16, R18, R19) -/

section
variable {s z : State} {e : EndId} {m : MarkFields} {k hop : Nat} {side : Side} (hz : CameTo s k z)
include hz

theorem CameTo.phase : (z.endUnit e).phase = (s.endUnit e).phase := (congrArg EndUnit.phase (hz.ends e) :)

theorem CameTo.sighting : (z.endUnit e).sighting = (s.endUnit e).sighting := (congrArg EndUnit.sighting (hz.ends e) :)

variable (hl : s.leaderTag ≠ some m.leader)
include hl

/-- A foreign mark after which nothing is reported leaves of the end unit what the mark made of it. -/
theorem foreign_mark_seen (hp : (s.endUnit e).phase ≠ .reported)
    (hi : ((z.endUnit e).foreignMark (s.now + k) m).phase = .sighting
      ∨ ((z.endUnit e).foreignMark (s.now + k) m).foreign = none) :
    let t := State.settle z (z.detectMark e m hop side)
    (t.endUnit e).phase = ((z.endUnit e).foreignMark (s.now + k) m).phase
      ∧ (t.endUnit e).sighting = ((z.endUnit e).foreignMark (s.now + k) m).sighting := by
  intro t
  obtain ⟨hphase, hsight, hforeign, -, -⟩ := EndUnit.readAdjacent_keeps hop .leader side
    ((z.endUnit e).foreignMark (s.now + k) m)
  have hx : (z.mapEnd e (EndUnit.markSeen (s.now + k) m hop side)).endUnit e
      = (z.endUnit e).markSeen (s.now + k) m hop side := State.endUnit_mapEnd _ _ _
  have ht : z.detectMark e m hop side = z.mapEnd e (EndUnit.markSeen (s.now + k) m hop side) := by
    rw [State.detectMark_unreported (by rw [hz.passed.leaderTag]; exact hl) (by rw [hz.phase]; exact hp), hz.now]
    refine State.tryReport_idle ?_
    rw [hx]
    exact hi.imp hphase.trans hforeign.trans
  have hkeep : z.detectable e = true → (z.detectMark e m hop side).detectable e = true := by
    rw [ht, State.detectable_mapEnd (EndUnit.markSeen_mode _ _ _ _)]
    exact id
  refine ⟨(settle_detecting hkeep EndUnit.phase (fun _ => rfl) fun _ => rfl).trans ?_,
    (settle_detecting hkeep EndUnit.sighting (fun _ => rfl) fun _ => rfl).trans ?_⟩
  · rw [ht, hx]
    exact hphase
  · rw [ht, hx]
    exact hsight

/-- A mark that finds the foreign table complete, the adjacent car in its place and the contact CLOSED (R18, R19). -/
theorem foreign_mark_reported {rep : ForeignReport} {r : Sighting} (h : s.detecting e = true)
    (hg : (s.endUnit e).segregated = false) (hn : s.form.node = .member) (hv : (s.endUnit e).sighting = some r)
    (hr : r.leader = m.leader ∧ r.epoch = m.epoch) (hp : (s.endUnit e).phase = .collecting) (hh : hop ≠ 0)
    (hrep : (s.endUnit e).report (s.fixedEnd e) = some rep) (hc : (s.endUnit e).contact = .closed) :
    let t := State.settle z (z.detectMark e m hop side)
    (t.endUnit e).phase = .reported ∧ (t.endUnit e).watch = .none
      ∧ t.pet.queue = putWant (.joinSeen e rep 0) s.pet.queue := by
  intro t
  let x := z.mapEnd e (EndUnit.markSeen (s.now + k) m hop side)
  let y := x.mapEnd e (EndUnit.withReport rep)
  have hzp := (hz.phase (e := e)).trans hp
  have hsame : (z.endUnit e).sameForeign m = true := (EndUnit.sameForeign_iff ((hz.sighting).trans hv)).mpr hr
  have hx : x.endUnit e = (z.endUnit e).arrived (s.now + k) := by
    refine (State.endUnit_mapEnd _ _ _).trans ?_
    unfold EndUnit.markSeen EndUnit.readAdjacent
    rw [if_neg hh]
    exact EndUnit.foreignMark_collecting hzp hsame
  have hxp : Passed s x := hz.passed.mapEnd e _
  have hxd : x.detecting e = true := by
    have hcond : x.condition e = s.condition e := State.condition_congr hxp.powered hxp.node e
      (by rw [hx]; exact (congrArg EndUnit.mode (hz.ends e) :))
      (by rw [hx]; exact (congrArg EndUnit.segregated (hz.ends e) :))
    unfold State.detecting at h ⊢
    rw [hcond, hxp.node, hxp.outer]
    exact h
  have hxr : (x.endUnit e).report (x.fixedEnd e) = some rep := by
    rw [hx, EndUnit.report_arrived, hxp.fixedEnd, ← hrep]
    exact (congrArg (EndUnit.report (s.fixedEnd e)) (hz.ends e) :)
  have hyp : Passed s y := hxp.mapEnd e _
  have hyn : y.form.node = .member := hyp.node.trans hn
  have ht : z.detectMark e m hop side = { y with pet := { y.pet with queue := putWant (.joinSeen e rep 0) y.pet.queue } } := by
    rw [State.detectMark_unreported (by rw [hz.passed.leaderTag]; exact hl) (by rw [hzp]; decide), hz.now]
    refine (State.tryReport_reports hxd (by rw [hx]; exact hzp)
      (by rw [hx]; exact (congrArg EndUnit.segregated (hz.ends e) :).trans hg) hxr
      (by rw [hx]; exact (congrArg EndUnit.contact (hz.ends e) :).trans hc)).trans ?_
    exact State.queueWant_of_not_lead _ (s := y) (by rw [hyn]; decide)
  have hkeep : z.detectable e = true → (z.detectMark e m hop side).detectable e = true := by
    intro hd
    have hxdet : x.detectable e = true := (State.detectable_mapEnd (EndUnit.markSeen_mode _ _ _ _) e).trans hd
    have hydet : y.detectable e = true := (State.detectable_mapEnd (g := EndUnit.withReport rep) (fun _ => rfl) e).trans hxdet
    rw [ht]
    cases e <;> exact hydet
  have hye : (z.detectMark e m hop side).endUnit e = (x.endUnit e).withReport rep := by
    rw [ht]
    cases e <;> rfl
  refine ⟨(settle_detecting hkeep EndUnit.phase (fun _ => rfl) fun _ => rfl).trans ?_,
    (settle_detecting hkeep EndUnit.watch (fun _ => rfl) fun _ => rfl).trans ?_, ?_⟩
  · rw [hye]; rfl
  · rw [hye]; rfl
  · show (State.settle _ _).pet.queue = _
    rw [settle_pet, ht, ← hyp.queue]

end

/-- A foreign mark on an outer end: sighted, counted, sighted afresh, or the last thing a report waited for. -/
theorem foreign_mark_told {s : State} {e : EndId} {os : List Octet} {m : MarkFields} {k : Nat}
    (h : MarkComes s e os m true) (hn : s.form.node = .lead ∨ s.form.node = .member) (hl : s.leaderTag ≠ some m.leader) :
    let v := s.endUnit e
    let first := sightingOf (s.now + k) m
    ∃ t, exec (.markReceived k e os) s = .next t
      ∧ (v.phase = .quiet → (t.endUnit e).phase = .sighting ∧ (t.endUnit e).sighting = some first)
      ∧ (∀ r, v.sighting = some r → (r.leader = m.leader ∧ r.epoch = m.epoch → v.phase = .sighting →
          (t.endUnit e).phase = (if r.count < 2 then .sighting else .collecting)
            ∧ (t.endUnit e).sighting = some { r with count := min 3 (r.count + 1), arrival := s.now + k })
        ∧ (r.leader ≠ m.leader ∨ r.epoch ≠ m.epoch → v.phase = .sighting ∨ v.phase = .collecting →
          (t.endUnit e).phase = .sighting ∧ (t.endUnit e).sighting = some first)
        ∧ (∀ rep, r.leader = m.leader ∧ r.epoch = m.epoch → v.phase = .collecting → recordHop os ≠ 0 →
          v.report (s.fixedEnd e) = some rep → v.contact = .closed → s.form.node = .member →
          (t.endUnit e).phase = .reported ∧ (t.endUnit e).watch = .none
            ∧ t.pet.queue = putWant (.joinSeen e rep 0) s.pet.queue)) := by
  intro v first
  obtain ⟨hp, hm, hg, ho, hgood, hd⟩ := h
  have hc : s.condition e = .active :=
    State.condition_active hp (by rcases hn with hn | hn <;> rw [hn] <;> decide) hm hg
  have hz : CameTo s k (s.recordCame k e os) := s.recordCame_came k e os
  have hx := receive_outside (k := k) hgood (by decide) hp hc ho hn fun p s => s.handMark e os p
  have hh : (s.recordCame k e os).handMark e os .outside =
      (s.recordCame k e os).detectMark e m (recordHop os) (recordSide os) := by
    unfold State.handMark
    dsimp only
    rw [hd]
  rw [hh] at hx
  have hdet : s.detecting e = true := by
    unfold State.detecting
    rw [ho, hc]
    rcases hn with hn | hn <;> rw [hn] <;> rfl
  refine ⟨_, (exec_markReceived s k e os).trans hx, fun hq => ?_,
    fun r hr => ⟨fun hsame hph => ?_, fun hother hph => ?_, fun rep hsame hph hhop hrep hcon hnm => ?_⟩⟩
  · have hf := EndUnit.foreignMark_quiet (now := s.now + k) (m := m) ((hz.phase (e := e)).trans hq)
    have hw := foreign_mark_seen hz hl (hop := recordHop os) (side := recordSide os)
      (show v.phase ≠ .reported by rw [hq]; decide) (.inl (by rw [hf]; rfl))
    rw [hf] at hw
    exact hw
  · have hf := EndUnit.foreignMark_again (now := s.now + k) ((hz.phase (e := e)).trans hph)
      ((hz.sighting).trans hr) ((EndUnit.sameForeign_iff ((hz.sighting).trans hr)).mpr hsame)
    have hw := foreign_mark_seen hz hl (hop := recordHop os) (side := recordSide os)
      (show v.phase ≠ .reported by rw [hph]; decide) (.inr (by rw [hf]))
    rw [hf] at hw
    exact hw
  · have hnot : ((s.recordCame k e os).endUnit e).sameForeign m = false := by
      rw [Bool.eq_false_iff]
      intro hs
      obtain ⟨h1, h2⟩ := (EndUnit.sameForeign_iff ((hz.sighting).trans hr)).mp hs
      rcases hother with h | h
      · exact h h1
      · exact h h2
    obtain ⟨hf1, hf2⟩ := EndUnit.foreignMark_other (now := s.now + k)
      (by rw [hz.phase]; exact hph) hnot
    have hw := foreign_mark_seen hz hl (hop := recordHop os) (side := recordSide os)
      (show v.phase ≠ .reported by rcases hph with hph | hph <;> rw [hph] <;> decide) (.inl hf1)
    exact ⟨hw.1.trans hf1, hw.2.trans hf2⟩
  · exact foreign_mark_reported hz hl hdet hg hnm hr hsame hph hhop hrep hcon

/-! ## O42 -/

/-- A mark of the followed leader and epoch that a SYNCED member takes in LOCKED or FLYWHEEL (R33, R38). -/
theorem Follows.plain {s : State} {k : Nat} {e : EndId} {os : List Octet} {m : MarkFields} (h : MarkComes s e os m false)
    (hs : s.synced = true) (hl : s.timer.lock = .locked ∨ s.timer.lock = .flywheel) (hu : s.upstream = some e)
    (hf : s.timer.followed = some (m.leader, m.epoch)) (hw : InWindow s (s.now + k) ∨ s.timer.early = 3) :
    ∃ z, exec (.markReceived k e os) s = finish (s.recordCame k e os) (z.acceptMark e m (recordHop os))
      ∧ Follows s k e m z := by
  obtain ⟨hn, -⟩ := (State.synced_iff s).mp hs
  obtain ⟨z, hx, hz⟩ := mark_followed (k := k) h hn hl hu (.inl (followedMark_of (.inl hf)))
  refine ⟨z, hx.trans (congrArg (finish _) ?_), hz⟩
  rcases hw with hw | hw
  · exact hz.judged_inWindow _ hw
  · exact hz.judged_relock _ hw

/-- Settles O42, clause by clause: each mark is handed on along its path, and there judged. -/
theorem marksHeardAndAccepted : Obligations.MarksHeardAndAccepted := by
  refine ⟨fun s e os m k hp hn hm hg hd hl => third_mark_applies hp hn hm hg hd hl, ?_, ?_, ?_,
    fun s e os m k h hrest ha => alien_mark_noted h hrest ha, ?_, ?_,
    fun s e os m k h hn hl => foreign_mark_told h hn hl⟩
  · intro s e os m k hp hn hs hl _ hm hg ho hu hgood hd hf hw1 hw2
    obtain ⟨z, hx, hz⟩ := Follows.plain (k := k) ⟨hp, hm, hg, ho, hgood, hd⟩ hs hl hu hf (.inl ⟨hw1, hw2⟩)
    obtain ⟨⟨n, ht⟩, hnode, hcur⟩ := plain_mark_told (b := s.recordCame k e os) (e := e) (hop := recordHop os) hz.came hs hf
    refine ⟨_, hx, ?_, ?_, ?_, ?_, ?_, ?_, ?_, ?_, ?_, ?_, hnode, hcur⟩ <;> rw [ht] <;> rfl
  · intro s e os m k h ⟨hn, hl, he, hu⟩ hf ho u
    obtain ⟨z, hx, hz⟩ := mark_followed (k := k) h hn hl hu (.inl (followedMark_of (.inl hf)))
    rw [hz.judged_early _ he ho] at hx
    obtain ⟨hform, htimer⟩ := State.earlyMark_timer (s := z) (by rw [hz.early]; exact he)
    refine ⟨_, hx, ?_, ?_⟩
    · rw [settle_form, hform]
      exact hz.came.form
    · have hhold : u.timer.earlyHold = s.timer.earlyHold := by rw [(Passed.advance s k).timer]
      have hearly : u.timer.early = s.timer.early := by rw [(Passed.advance s k).timer]
      rw [settle_timer, htimer, hz.came.timer, ← hhold, ← hearly]
  · intro s e os m k h hs hl hu hf he
    obtain ⟨z, hx, hz⟩ := Follows.plain (k := k) h hs hl hu hf (.inr he)
    obtain ⟨⟨n, ht⟩, -, hcur⟩ := plain_mark_told (b := s.recordCame k e os) (e := e) (hop := recordHop os) hz.came hs hf
    refine ⟨_, hx, ?_, ?_, ?_, ?_, ?_, hcur, fun hrest hw hn => relock_noticed hz hs hf he hrest hw hn⟩ <;> rw [ht] <;> rfl
  · intro s e os m k h ⟨hn, hl, _, hu⟩ hs hf hw
    obtain ⟨z, hx, hz⟩ := mark_followed (k := k) h hn hl hu (.inl (followedMark_of (.inr hf)))
    rw [hz.judged_inWindow _ hw] at hx
    exact ⟨_, hx, epoch_advance_told hz.came hs hf⟩
  · intro s e os m l k h ⟨hn, hl, _, hu⟩ hs hf hne ho hk hw
    have hsm : s.successorMark m = true := by
      rw [State.successorMark_eq hf (by rw [hn]; decide), epoch_pred_succ, hk]
      simpa using ho
    obtain ⟨z, hx, hz⟩ := mark_followed (k := k) h hn hl hu (.inr hsm)
    rw [hz.judged_inWindow _ hw] at hx
    exact ⟨_, hx, successor_told hz.came hs hf hne hsm⟩

end Sys2Proof.Machine
end
